-- ==== Sys2Proof/Word.lean ====
section
/-! DEFINITION. The data sizes of the machine (20_memory.md R80) and the register fields of its instructions (10_state.md R20, R22). -/

namespace Sys2Proof

/-- A byte, the unit of memory (R80). -/
abbrev Byte := BitVec 8

/-- A half-word: 16 bits (R80). -/
abbrev Half := BitVec 16

/-- A word: 32 bits, the width of every register and of an address (R9, R80). -/
abbrev Word := BitVec 32

/-- The 5-bit field of a 32-bit instruction that names a general register r0..r31 (R22, R128). -/
abbrev Reg := BitVec 5

/-- The 4-bit field of a 16-bit instruction that names a register of the half g0 (r0..r15), or of g1 (r16..r31) in `mlfh!` and `mhfl!` (R22). -/
abbrev G0 := BitVec 4

end Sys2Proof
end

