-- ==== Sys2Proof/Syntax.lean ====
section
/-! DEFINITION. The instructions: one constructor for each row of spec/opcode_table.json, in the table's order (30_encoding.md R177). A constructor's arguments are the fields of its encoding (R128); the immediates are the raw fields, extended and scaled by the meanings (R129). -/

namespace Sys2Proof

/-- The conditions of R33, in the order of their codes 0 to 15. -/
inductive Cond where
  | cs | cc | gtu | leu | eq | ne | gt | le | ge | lt | mi | pl | vs | vc | cnz | al
deriving DecidableEq, Repr

/-- The TCS field of the compares, in the order of its codes 0 to 3: T takes Z, T takes N, reserved (behaves as 3), plain compare (R128, R200). -/
inductive Tcs where
  | teq | tmi | reserved | plain
deriving DecidableEq, Repr

/-- A machine instruction. The suffixes: `L` links, `Pre` and `Post` are the index forms (R325), `F`, `Fs` and `S` are the `.f`, `.fs` and `.s` forms (R540), `16` a 16-bit instruction; `cu` is the CU bit (R206). -/
inductive Instr where
  /-- `nop` (R410). -/
  | nop
  /-- `syscall` (R400). -/
  | syscall (imm : BitVec 15)
  /-- `trap{cond}` (R405). -/
  | trapCond (c : Cond) (imm : BitVec 5)
  /-- `sdbbp` (R408). -/
  | sdbbp (code : BitVec 5)
  /-- `br{cond}` (R276). -/
  | brCond (c : Cond) (ra : Reg)
  /-- `br{cond}l` (R277). -/
  | brCondL (c : Cond) (ra : Reg)
  /-- `pflush` (R346). -/
  | pflush
  /-- `add` (R181). -/
  | add (rd ra rb : Reg) (cu : Bool)
  /-- `addc` (R182). -/
  | addc (rd ra rb : Reg) (cu : Bool)
  /-- `sub` (R186). -/
  | sub (rd ra rb : Reg) (cu : Bool)
  /-- `subc` (R187). -/
  | subc (rd ra rb : Reg) (cu : Bool)
  /-- `cmp{TCS}.c` (R200). -/
  | cmp (tcs : Tcs) (ra rb : Reg)
  /-- `cmpz{TCS}.c` (R201). -/
  | cmpz (tcs : Tcs) (ra : Reg)
  /-- `neg` (R188). -/
  | neg (rd rb : Reg) (cu : Bool)
  /-- `and` (R190). -/
  | and (rd ra rb : Reg) (cu : Bool)
  /-- `or` (R194). -/
  | or (rd ra rb : Reg) (cu : Bool)
  /-- `not` (R199). -/
  | not (rd ra : Reg) (cu : Bool)
  /-- `xor` (R198). -/
  | xor (rd ra rb : Reg) (cu : Bool)
  /-- `bittst.c` (R203). -/
  | bittst (ra : Reg) (bn : BitVec 5)
  /-- `sll` (R230). -/
  | sll (rd ra rb : Reg) (cu : Bool)
  /-- `srl` (R232). -/
  | srl (rd ra rb : Reg) (cu : Bool)
  /-- `sra` (R234). -/
  | sra (rd ra rb : Reg) (cu : Bool)
  /-- `ror` (R240). -/
  | ror (rd ra rb : Reg) (cu : Bool)
  /-- `rol` (R238). -/
  | rol (rd ra rb : Reg) (cu : Bool)
  /-- `rorc.c` (R242). -/
  | rorc (rd ra rb : Reg)
  /-- `rolc.c` (R244). -/
  | rolc (rd ra rb : Reg)
  /-- `mul` (R361). -/
  | mul (ra rb : Reg)
  /-- `mul.f` (R545). -/
  | mulF (ra rb : Reg)
  /-- `mulu` (R362). -/
  | mulu (ra rb : Reg)
  /-- `div` (R363). -/
  | div (ra rb : Reg)
  /-- `divu` (R364). -/
  | divu (ra rb : Reg)
  /-- `mfcel` (R371). -/
  | mfcel (rd : Reg)
  /-- `mfceh` (R373). -/
  | mfceh (rd : Reg)
  /-- `mfcehl` (R374). -/
  | mfcehl (rd ra : Reg)
  /-- `mfcex (HI = LO = 0)` (R372). -/
  | mfcex0 (rd : Reg)
  /-- `mtcel` (R376). -/
  | mtcel (rd : Reg)
  /-- `mtceh` (R377). -/
  | mtceh (rd : Reg)
  /-- `mtcehl` (R378). -/
  | mtcehl (rd ra : Reg)
  /-- `mtcex (HI = LO = 0)` (R375). -/
  | mtcex0 (rd : Reg)
  /-- `mfsr` (R380). -/
  | mfsr (rd : Reg) (srn : BitVec 5)
  /-- `mtsr` (R381). -/
  | mtsr (ra : Reg) (srn : BitVec 5)
  /-- `t{cond}` (R288). -/
  | tCond (c : Cond)
  /-- `mv{cond}` (R286). -/
  | mvCond (c : Cond) (rd ra : Reg)
  /-- `extsb` (R246). -/
  | extsb (rd ra : Reg) (cu : Bool)
  /-- `extsh` (R247). -/
  | extsh (rd ra : Reg) (cu : Bool)
  /-- `extzb` (R248). -/
  | extzb (rd ra : Reg) (cu : Bool)
  /-- `extzh` (R249). -/
  | extzh (rd ra : Reg) (cu : Bool)
  /-- `lcb` (R331). -/
  | lcb (ra : Reg)
  /-- `lcw` (R332). -/
  | lcw (rd ra : Reg)
  /-- `lce` (R333). -/
  | lce (rd ra : Reg)
  /-- `scb` (R334). -/
  | scb (rd ra : Reg)
  /-- `scw` (R335). -/
  | scw (rd ra : Reg)
  /-- `sce` (R336). -/
  | sce (ra : Reg)
  /-- `slli` (R231). -/
  | slli (rd ra : Reg) (sa : BitVec 5) (cu : Bool)
  /-- `srli` (R233). -/
  | srli (rd ra : Reg) (sa : BitVec 5) (cu : Bool)
  /-- `srai` (R235). -/
  | srai (rd ra : Reg) (sa : BitVec 5) (cu : Bool)
  /-- `rori` (R241). -/
  | rori (rd ra : Reg) (sa : BitVec 5) (cu : Bool)
  /-- `roli` (R239). -/
  | roli (rd ra : Reg) (sa : BitVec 5) (cu : Bool)
  /-- `roric.c` (R243). -/
  | roric (rd ra : Reg) (sa : BitVec 5)
  /-- `rolic.c` (R245). -/
  | rolic (rd ra : Reg) (sa : BitVec 5)
  /-- `addi` (R183). -/
  | addi (rd : Reg) (imm : BitVec 16) (cu : Bool)
  /-- `cmpi.c` (R202). -/
  | cmpi (rd : Reg) (imm : BitVec 16)
  /-- `andi` (R191). -/
  | andi (rd : Reg) (imm : BitVec 16) (cu : Bool)
  /-- `ori` (R195). -/
  | ori (rd : Reg) (imm : BitVec 16) (cu : Bool)
  /-- `ldi` (R204). -/
  | ldi (rd : Reg) (imm : BitVec 16)
  /-- `addis` (R184). -/
  | addis (rd : Reg) (imm : BitVec 16) (cu : Bool)
  /-- `andis` (R192). -/
  | andis (rd : Reg) (imm : BitVec 16) (cu : Bool)
  /-- `oris` (R196). -/
  | oris (rd : Reg) (imm : BitVec 16) (cu : Bool)
  /-- `ldis` (R205). -/
  | ldis (rd : Reg) (imm : BitVec 16)
  /-- `j` (R278). -/
  | j (disp : BitVec 24)
  /-- `jl` (R278). -/
  | jl (disp : BitVec 24)
  /-- `lw (pre-index)` (R303). -/
  | lwPre (rd ra : Reg) (imm : BitVec 12)
  /-- `lh (pre-index)` (R306). -/
  | lhPre (rd ra : Reg) (imm : BitVec 12)
  /-- `lhu (pre-index)` (R309). -/
  | lhuPre (rd ra : Reg) (imm : BitVec 12)
  /-- `lb (pre-index)` (R312). -/
  | lbPre (rd ra : Reg) (imm : BitVec 12)
  /-- `sw (pre-index)` (R318). -/
  | swPre (rd ra : Reg) (imm : BitVec 12)
  /-- `sh (pre-index)` (R321). -/
  | shPre (rd ra : Reg) (imm : BitVec 12)
  /-- `lbu (pre-index)` (R315). -/
  | lbuPre (rd ra : Reg) (imm : BitVec 12)
  /-- `sb (pre-index)` (R324). -/
  | sbPre (rd ra : Reg) (imm : BitVec 12)
  /-- `b{cond}` (R274). -/
  | bCond (c : Cond) (disp : BitVec 19)
  /-- `b{cond}l` (R275). -/
  | bCondL (c : Cond) (disp : BitVec 19)
  /-- `lw (post-index)` (R302). -/
  | lwPost (rd ra : Reg) (imm : BitVec 12)
  /-- `lh (post-index)` (R305). -/
  | lhPost (rd ra : Reg) (imm : BitVec 12)
  /-- `lhu (post-index)` (R308). -/
  | lhuPost (rd ra : Reg) (imm : BitVec 12)
  /-- `lb (post-index)` (R311). -/
  | lbPost (rd ra : Reg) (imm : BitVec 12)
  /-- `sw (post-index)` (R317). -/
  | swPost (rd ra : Reg) (imm : BitVec 12)
  /-- `sh (post-index)` (R320). -/
  | shPost (rd ra : Reg) (imm : BitVec 12)
  /-- `lbu (post-index)` (R314). -/
  | lbuPost (rd ra : Reg) (imm : BitVec 12)
  /-- `sb (post-index)` (R323). -/
  | sbPost (rd ra : Reg) (imm : BitVec 12)
  /-- `mtcr` (R383). -/
  | mtcr (rd : Reg) (crn : BitVec 5)
  /-- `mfcr` (R382). -/
  | mfcr (rd : Reg) (crn : BitVec 5)
  /-- `rte` (R406). -/
  | rte
  /-- `drte` (R407). -/
  | drte
  /-- `sleep` (R409). -/
  | sleep
  /-- `mtc{n}` (R386). -/
  | mtc (n : BitVec 2) (rd : Reg) (cra : BitVec 5)
  /-- `mfc{n}` (R387). -/
  | mfc (n : BitVec 2) (rd : Reg) (cra : BitVec 5)
  /-- `ldc{n}` (R390). -/
  | ldc (n : BitVec 2) (rd : Reg) (cra : BitVec 5) (imm : BitVec 10)
  /-- `stc{n}` (R391). -/
  | stc (n : BitVec 2) (rd : Reg) (cra : BitVec 5) (imm : BitVec 10)
  /-- `cop{n}` (R392). -/
  | cop (n : BitVec 2) (code : BitVec 20)
  /-- `mtcc{n}` (R388). -/
  | mtcc (n : BitVec 2) (rd : Reg) (cra : BitVec 5)
  /-- `mfcc{n}` (R389). -/
  | mfcc (n : BitVec 2) (rd : Reg) (cra : BitVec 5)
  /-- `addri` (R185). -/
  | addri (rd ra : Reg) (imm : BitVec 14) (cu : Bool)
  /-- `andri` (R193). -/
  | andri (rd ra : Reg) (imm : BitVec 14) (cu : Bool)
  /-- `orri` (R197). -/
  | orri (rd ra : Reg) (imm : BitVec 14) (cu : Bool)
  /-- `lw` (R301). -/
  | lw (rd ra : Reg) (imm : BitVec 15)
  /-- `lh` (R304). -/
  | lh (rd ra : Reg) (imm : BitVec 15)
  /-- `lhu` (R307). -/
  | lhu (rd ra : Reg) (imm : BitVec 15)
  /-- `lb` (R310). -/
  | lb (rd ra : Reg) (imm : BitVec 15)
  /-- `sw` (R316). -/
  | sw (rd ra : Reg) (imm : BitVec 15)
  /-- `sh` (R319). -/
  | sh (rd ra : Reg) (imm : BitVec 15)
  /-- `lbu` (R313). -/
  | lbu (rd ra : Reg) (imm : BitVec 15)
  /-- `sb` (R322). -/
  | sb (rd ra : Reg) (imm : BitVec 15)
  /-- `cache` (R343). -/
  | cache (op : BitVec 5) (ra : Reg) (imm : BitVec 15)
  /-- `ceinst` (R395). -/
  | ceinst (func5 : BitVec 5) (ra rb : Reg) (usd1 usd2 : BitVec 5)
  /-- `mad` (R546). -/
  | mad (ra rb : Reg)
  /-- `madu` (R547). -/
  | madu (ra rb : Reg)
  /-- `mad.f` (R548). -/
  | madF (ra rb : Reg)
  /-- `msb` (R549). -/
  | msb (ra rb : Reg)
  /-- `msbu` (R550). -/
  | msbu (ra rb : Reg)
  /-- `msb.f` (R551). -/
  | msbF (ra rb : Reg)
  /-- `mazl` (R555). -/
  | mazl (ra rb : Reg)
  /-- `mazl.f` (R556). -/
  | mazlF (ra rb : Reg)
  /-- `madl` (R557). -/
  | madl (ra rb : Reg)
  /-- `madl.fs` (R558). -/
  | madlFs (ra rb : Reg)
  /-- `mszl` (R559). -/
  | mszl (ra rb : Reg)
  /-- `mszl.f` (R560). -/
  | mszlF (ra rb : Reg)
  /-- `msbl` (R561). -/
  | msbl (ra rb : Reg)
  /-- `msbl.fs` (R562). -/
  | msblFs (ra rb : Reg)
  /-- `mazh` (R565). -/
  | mazh (ra rb : Reg)
  /-- `mazh.f` (R566). -/
  | mazhF (ra rb : Reg)
  /-- `madh` (R567). -/
  | madh (ra rb : Reg)
  /-- `madh.fs` (R568). -/
  | madhFs (ra rb : Reg)
  /-- `mszh` (R569). -/
  | mszh (ra rb : Reg)
  /-- `mszh.f` (R570). -/
  | mszhF (ra rb : Reg)
  /-- `msbh` (R571). -/
  | msbh (ra rb : Reg)
  /-- `msbh.fs` (R572). -/
  | msbhFs (ra rb : Reg)
  /-- `min` (R573). -/
  | min (rd ra rb : Reg)
  /-- `max` (R574). -/
  | max (rd ra rb : Reg)
  /-- `add.s` (R575). -/
  | addS (rd ra rb : Reg)
  /-- `sub.s` (R576). -/
  | subS (rd ra rb : Reg)
  /-- `abs` (R577). -/
  | abs (rd ra : Reg)
  /-- `abs.s` (R578). -/
  | absS (rd ra : Reg)
  /-- `bitrev` (R596). -/
  | bitrev (rd ra rb : Reg)
  /-- `clz` (R579). -/
  | clz (rd ra : Reg)
  /-- `sll.s` (R580). -/
  | sllS (rd ra rb : Reg)
  /-- `nop!` (R481). -/
  | nop16
  /-- `mlfh!` (R449). -/
  | mlfh16 (rd ra : G0)
  /-- `mhfl!` (R450). -/
  | mhfl16 (rd ra : G0)
  /-- `mv!` (R448). -/
  | mv16 (rd ra : G0)
  /-- `br{cond}!` (R456). -/
  | brCond16 (c : Cond) (ra : G0)
  /-- `t{cond}!` (R483). -/
  | tCond16 (c : Cond)
  /-- `sll!` (R440). -/
  | sll16 (rd ra : G0)
  /-- `addc!` (R426). -/
  | addc16 (rd ra : G0)
  /-- `srl!` (R442). -/
  | srl16 (rd ra : G0)
  /-- `sra!` (R444). -/
  | sra16 (rd ra : G0)
  /-- `mtcel!` (R581). -/
  | mtcel16 (ra : G0)
  /-- `mtceh!` (R582). -/
  | mtceh16 (ra : G0)
  /-- `mfcel!` (R583). -/
  | mfcel16 (ra : G0)
  /-- `mfceh!` (R584). -/
  | mfceh16 (ra : G0)
  /-- `mul.f!` (R585). -/
  | mulF16 (ra rb : G0)
  /-- `mulu!` (R586). -/
  | mulu16 (ra rb : G0)
  /-- `mad.f!` (R587). -/
  | madF16 (ra rb : G0)
  /-- `madu!` (R588). -/
  | madu16 (ra rb : G0)
  /-- `msb.f!` (R589). -/
  | msbF16 (ra rb : G0)
  /-- `msbu!` (R590). -/
  | msbu16 (ra rb : G0)
  /-- `mazl.f!` (R591). -/
  | mazlF16 (ra rb : G0)
  /-- `mazh.f!` (R592). -/
  | mazhF16 (ra rb : G0)
  /-- `madl.fs!` (R593). -/
  | madlFs16 (ra rb : G0)
  /-- `madh.fs!` (R594). -/
  | madhFs16 (ra rb : G0)
  /-- `mszl.f!` (R595). -/
  | mszlF16 (ra rb : G0)
  /-- `mszh.f!` (R597). -/
  | mszhF16 (ra rb : G0)
  /-- `msbl.fs!` (R598). -/
  | msblFs16 (ra rb : G0)
  /-- `msbh.fs!` (R599). -/
  | msbhFs16 (ra rb : G0)
  /-- `add!` (R425). -/
  | add16 (rd ra : G0)
  /-- `sub!` (R429). -/
  | sub16 (rd ra : G0)
  /-- `neg!` (R430). -/
  | neg16 (rd ra : G0)
  /-- `cmp!` (R431). -/
  | cmp16 (rd ra : G0)
  /-- `and!` (R435). -/
  | and16 (rd ra : G0)
  /-- `or!` (R436). -/
  | or16 (rd ra : G0)
  /-- `not!` (R437). -/
  | not16 (rd ra : G0)
  /-- `xor!` (R438). -/
  | xor16 (rd ra : G0)
  /-- `lw!` (R460). -/
  | lw16 (rd ra : G0)
  /-- `lh!` (R461). -/
  | lh16 (rd ra : G0)
  /-- `pop!` (R466). -/
  | pop16 (rd : G0) (h : Bool) (base : BitVec 3)
  /-- `lbu!` (R462). -/
  | lbu16 (rd ra : G0)
  /-- `sw!` (R463). -/
  | sw16 (rd ra : G0)
  /-- `sh!` (R464). -/
  | sh16 (rd ra : G0)
  /-- `push!` (R467). -/
  | push16 (rd : G0) (h : Bool) (base : BitVec 3)
  /-- `sb!` (R465). -/
  | sb16 (rd ra : G0)
  /-- `j!` (R457). -/
  | j16 (disp : BitVec 11)
  /-- `jl!` (R458). -/
  | jl16 (disp : BitVec 11)
  /-- `b{cond}!` (R455). -/
  | bCond16 (c : Cond) (disp : BitVec 8)
  /-- `ldiu!` (R451). -/
  | ldiu16 (rd : G0) (imm : BitVec 8)
  /-- `addei!` (R427). -/
  | addei16 (rd : G0) (exp : BitVec 4)
  /-- `subei!` (R428). -/
  | subei16 (rd : G0) (exp : BitVec 4)
  /-- `slli!` (R441). -/
  | slli16 (rd : G0) (sa : BitVec 5)
  /-- `sdbbp!` (R480). -/
  | sdbbp16 (code : BitVec 5)
  /-- `srli!` (R443). -/
  | srli16 (rd : G0) (sa : BitVec 5)
  /-- `bittst!` (R439). -/
  | bittst16 (rd : G0) (bn : BitVec 5)
  /-- `lwp!` (R470). -/
  | lwp16 (rd : G0) (imm : BitVec 5)
  /-- `lhp!` (R471). -/
  | lhp16 (rd : G0) (imm : BitVec 5)
  /-- `lbup!` (R472). -/
  | lbup16 (rd : G0) (imm : BitVec 5)
  /-- `swp!` (R473). -/
  | swp16 (rd : G0) (imm : BitVec 5)
  /-- `shp!` (R474). -/
  | shp16 (rd : G0) (imm : BitVec 5)
  /-- `sbp!` (R475). -/
  | sbp16 (rd : G0) (imm : BitVec 5)
deriving DecidableEq, Repr

end Sys2Proof
end

