-- ==== Sys2Proof/WellFormed.lean ====
section
/-! DEFINITION. Which terms of Instr stand for a machine instruction: the constraints that spec/opcode_table.json puts on the fields of its rows. -/

namespace Sys2Proof

/-- Srn names one of the three special registers (R37, R170). -/
def srnDefined (srn : BitVec 5) : Bool := decide (srn.toNat ≤ 2)

/-- CP# names a coprocessor; 00 is reserved (R134). -/
def copDefined (n : BitVec 2) : Bool := n != 0

/-- The fields of the instruction meet the constraints of its row in the opcode table. -/
def Instr.wellFormed : Instr → Bool
  | .mfsr _ srn => srnDefined srn
  | .mtsr _ srn => srnDefined srn
  | .mtc n _ _ => copDefined n
  | .mfc n _ _ => copDefined n
  | .ldc n _ _ _ => copDefined n
  | .stc n _ _ _ => copDefined n
  | .cop n _ => copDefined n
  | .mtcc n _ _ => copDefined n
  | .mfcc n _ _ => copDefined n
  | .nop | .syscall .. | .trapCond .. | .sdbbp .. | .brCond .. | .brCondL .. | .pflush | .add .. | .addc ..
  | .sub .. | .subc .. | .cmp .. | .cmpz .. | .neg .. | .and .. | .or .. | .not .. | .xor .. | .bittst ..
  | .sll .. | .srl .. | .sra .. | .ror .. | .rol .. | .rorc .. | .rolc .. | .mul .. | .mulF .. | .mulu ..
  | .div .. | .divu .. | .mfcel .. | .mfceh .. | .mfcehl .. | .mfcex0 .. | .mtcel .. | .mtceh .. | .mtcehl ..
  | .mtcex0 .. | .tCond .. | .mvCond .. | .extsb .. | .extsh .. | .extzb .. | .extzh .. | .lcb .. | .lcw ..
  | .lce .. | .scb .. | .scw .. | .sce .. | .slli .. | .srli .. | .srai .. | .rori .. | .roli .. | .roric ..
  | .rolic .. | .addi .. | .cmpi .. | .andi .. | .ori .. | .ldi .. | .addis .. | .andis .. | .oris ..
  | .ldis .. | .j .. | .jl .. | .lwPre .. | .lhPre .. | .lhuPre .. | .lbPre .. | .swPre .. | .shPre ..
  | .lbuPre .. | .sbPre .. | .bCond .. | .bCondL .. | .lwPost .. | .lhPost .. | .lhuPost .. | .lbPost ..
  | .swPost .. | .shPost .. | .lbuPost .. | .sbPost .. | .mtcr .. | .mfcr .. | .rte | .drte | .sleep
  | .addri .. | .andri .. | .orri .. | .lw .. | .lh .. | .lhu .. | .lb .. | .sw .. | .sh .. | .lbu ..
  | .sb .. | .cache .. | .ceinst .. | .mad .. | .madu .. | .madF .. | .msb .. | .msbu .. | .msbF ..
  | .mazl .. | .mazlF .. | .madl .. | .madlFs .. | .mszl .. | .mszlF .. | .msbl .. | .msblFs .. | .mazh ..
  | .mazhF .. | .madh .. | .madhFs .. | .mszh .. | .mszhF .. | .msbh .. | .msbhFs .. | .min .. | .max ..
  | .addS .. | .subS .. | .abs .. | .absS .. | .bitrev .. | .clz .. | .sllS .. | .nop16 | .mlfh16 ..
  | .mhfl16 .. | .mv16 .. | .brCond16 .. | .tCond16 .. | .sll16 .. | .addc16 .. | .srl16 .. | .sra16 ..
  | .mtcel16 .. | .mtceh16 .. | .mfcel16 .. | .mfceh16 .. | .mulF16 .. | .mulu16 .. | .madF16 .. | .madu16 ..
  | .msbF16 .. | .msbu16 .. | .mazlF16 .. | .mazhF16 .. | .madlFs16 .. | .madhFs16 .. | .mszlF16 ..
  | .mszhF16 .. | .msblFs16 .. | .msbhFs16 .. | .add16 .. | .sub16 .. | .neg16 .. | .cmp16 .. | .and16 ..
  | .or16 .. | .not16 .. | .xor16 .. | .lw16 .. | .lh16 .. | .pop16 .. | .lbu16 .. | .sw16 .. | .sh16 ..
  | .push16 .. | .sb16 .. | .j16 .. | .jl16 .. | .bCond16 .. | .ldiu16 .. | .addei16 .. | .subei16 ..
  | .slli16 .. | .sdbbp16 .. | .srli16 .. | .bittst16 .. | .lwp16 .. | .lhp16 .. | .lbup16 .. | .swp16 ..
  | .shp16 .. | .sbp16 .. => true

/-- The number of bytes the instruction takes in memory: 4 for a 32-bit and 2 for a 16-bit instruction (R27, R120). -/
def Instr.size : Instr → Nat
  | .nop | .syscall .. | .trapCond .. | .sdbbp .. | .brCond .. | .brCondL .. | .pflush | .add .. | .addc ..
  | .sub .. | .subc .. | .cmp .. | .cmpz .. | .neg .. | .and .. | .or .. | .not .. | .xor .. | .bittst ..
  | .sll .. | .srl .. | .sra .. | .ror .. | .rol .. | .rorc .. | .rolc .. | .mul .. | .mulF .. | .mulu ..
  | .div .. | .divu .. | .mfcel .. | .mfceh .. | .mfcehl .. | .mfcex0 .. | .mtcel .. | .mtceh .. | .mtcehl ..
  | .mtcex0 .. | .mfsr .. | .mtsr .. | .tCond .. | .mvCond .. | .extsb .. | .extsh .. | .extzb .. | .extzh ..
  | .lcb .. | .lcw .. | .lce .. | .scb .. | .scw .. | .sce .. | .slli .. | .srli .. | .srai .. | .rori ..
  | .roli .. | .roric .. | .rolic .. | .addi .. | .cmpi .. | .andi .. | .ori .. | .ldi .. | .addis ..
  | .andis .. | .oris .. | .ldis .. | .j .. | .jl .. | .lwPre .. | .lhPre .. | .lhuPre .. | .lbPre ..
  | .swPre .. | .shPre .. | .lbuPre .. | .sbPre .. | .bCond .. | .bCondL .. | .lwPost .. | .lhPost ..
  | .lhuPost .. | .lbPost .. | .swPost .. | .shPost .. | .lbuPost .. | .sbPost .. | .mtcr .. | .mfcr ..
  | .rte | .drte | .sleep | .mtc .. | .mfc .. | .ldc .. | .stc .. | .cop .. | .mtcc .. | .mfcc .. | .addri ..
  | .andri .. | .orri .. | .lw .. | .lh .. | .lhu .. | .lb .. | .sw .. | .sh .. | .lbu .. | .sb ..
  | .cache .. | .ceinst .. | .mad .. | .madu .. | .madF .. | .msb .. | .msbu .. | .msbF .. | .mazl ..
  | .mazlF .. | .madl .. | .madlFs .. | .mszl .. | .mszlF .. | .msbl .. | .msblFs .. | .mazh .. | .mazhF ..
  | .madh .. | .madhFs .. | .mszh .. | .mszhF .. | .msbh .. | .msbhFs .. | .min .. | .max .. | .addS ..
  | .subS .. | .abs .. | .absS .. | .bitrev .. | .clz .. | .sllS .. => 4
  | .nop16 | .mlfh16 .. | .mhfl16 .. | .mv16 .. | .brCond16 .. | .tCond16 .. | .sll16 .. | .addc16 ..
  | .srl16 .. | .sra16 .. | .mtcel16 .. | .mtceh16 .. | .mfcel16 .. | .mfceh16 .. | .mulF16 .. | .mulu16 ..
  | .madF16 .. | .madu16 .. | .msbF16 .. | .msbu16 .. | .mazlF16 .. | .mazhF16 .. | .madlFs16 ..
  | .madhFs16 .. | .mszlF16 .. | .mszhF16 .. | .msblFs16 .. | .msbhFs16 .. | .add16 .. | .sub16 ..
  | .neg16 .. | .cmp16 .. | .and16 .. | .or16 .. | .not16 .. | .xor16 .. | .lw16 .. | .lh16 .. | .pop16 ..
  | .lbu16 .. | .sw16 .. | .sh16 .. | .push16 .. | .sb16 .. | .j16 .. | .jl16 .. | .bCond16 .. | .ldiu16 ..
  | .addei16 .. | .subei16 .. | .slli16 .. | .sdbbp16 .. | .srli16 .. | .bittst16 .. | .lwp16 .. | .lhp16 ..
  | .lbup16 .. | .swp16 .. | .shp16 .. | .sbp16 .. => 2

end Sys2Proof
end

