-- ==== Sys2Proof/Decode.lean ====
section
/-! DEFINITION. The decoder and the encoder (30_encoding.md). The decoder takes the half-words or the bytes that stand in memory, removes the P bits (R121) and matches the effective instruction against the opcode map (R130 to R145); a value that matches no row is rejected as reserved (R170), a pair with P bits 1 and 0 as a PCE pair (R125). The encoder writes each row's pattern of spec/opcode_table.json. -/

namespace Sys2Proof

/-- The condition code of R33. -/
def Cond.code : Cond → BitVec 4
  | .cs => 0 | .cc => 1 | .gtu => 2 | .leu => 3 | .eq => 4 | .ne => 5 | .gt => 6 | .le => 7
  | .ge => 8 | .lt => 9 | .mi => 10 | .pl => 11 | .vs => 12 | .vc => 13 | .cnz => 14 | .al => 15

/-- The condition that a code of R33 names. -/
def Cond.ofCode (b : BitVec 4) : Cond :=
  match b.toNat with
  | 0 => .cs | 1 => .cc | 2 => .gtu | 3 => .leu | 4 => .eq | 5 => .ne | 6 => .gt | 7 => .le
  | 8 => .ge | 9 => .lt | 10 => .mi | 11 => .pl | 12 => .vs | 13 => .vc | 14 => .cnz | _ => .al

/-- The TCS code of R128 and R200. -/
def Tcs.code : Tcs → BitVec 2
  | .teq => 0 | .tmi => 1 | .reserved => 2 | .plain => 3

/-- The selection that a TCS code names. -/
def Tcs.ofCode (b : BitVec 2) : Tcs :=
  match b.toNat with
  | 0 => .teq | 1 => .tmi | 2 => .reserved | _ => .plain

/-- Why the decoder rejects. -/
inductive DecodeError where
  /-- No row of the opcode map matches (R170). -/
  | reserved
  /-- The P bits of the two half-words differ (R125). -/
  | pcePair
  /-- The bytes end before the instruction does. -/
  | truncated
deriving DecidableEq, Repr

/-! ## The 32-bit opcode map, over the effective instruction (R126, R130 to R135) -/

/-- The row `i`, provided the bits that the row fixes hold. -/
def row (fixed : Bool) (i : Instr) : Option Instr := if fixed then some i else none

/-- Special form (R131): func6 in bits 6:1, bit 0 is CU (LK in `br{cond}`), bits 9:7 are 000. -/
def decodeSpecial (m : BitVec 30) : Option Instr :=
  let rd := m.extractLsb' 20 5
  let ra := m.extractLsb' 15 5
  let rb := m.extractLsb' 10 5
  let cu := m.getLsbD 0
  let cond := Cond.ofCode (rb.extractLsb' 0 4)
  let bit14 := rb.getLsbD 4
  if m.extractLsb' 7 3 != 0 then none else
  match (m.extractLsb' 1 6).toNat with
  | 0x00 => row (rd == 0 && ra == 0 && rb == 0 && !cu) .nop
  | 0x01 => row (!cu) (.syscall (m.extractLsb' 10 15))
  | 0x02 => row (rd == 0 && !bit14 && !cu) (.trapCond cond ra)
  | 0x03 => row (rd == 0 && rb == 0 && !cu) (.sdbbp ra)
  | 0x04 => row (rd == 0 && !bit14) (if cu then .brCondL cond ra else .brCond cond ra)
  | 0x05 => row (rd == 0 && ra == 0 && rb == 0 && !cu) .pflush
  | 0x08 => some (.add rd ra rb cu)
  | 0x09 => some (.addc rd ra rb cu)
  | 0x0A => some (.sub rd ra rb cu)
  | 0x0B => some (.subc rd ra rb cu)
  | 0x0C => row (rd.extractLsb' 2 3 == 0 && cu) (.cmp (Tcs.ofCode (rd.extractLsb' 0 2)) ra rb)
  | 0x0D => row (rd.extractLsb' 2 3 == 0 && rb == 0 && cu) (.cmpz (Tcs.ofCode (rd.extractLsb' 0 2)) ra)
  | 0x0F => row (ra == 0) (.neg rd rb cu)
  | 0x10 => some (.and rd ra rb cu)
  | 0x11 => some (.or rd ra rb cu)
  | 0x12 => row (rb == 0) (.not rd ra cu)
  | 0x13 => some (.xor rd ra rb cu)
  | 0x16 => row (rd == 0 && cu) (.bittst ra rb)
  | 0x18 => some (.sll rd ra rb cu)
  | 0x1A => some (.srl rd ra rb cu)
  | 0x1B => some (.sra rd ra rb cu)
  | 0x1C => some (.ror rd ra rb cu)
  | 0x1D => row cu (.rorc rd ra rb)
  | 0x1E => some (.rol rd ra rb cu)
  | 0x1F => row cu (.rolc rd ra rb)
  | 0x20 => row (rd == 0) (if cu then .mulF ra rb else .mul ra rb)
  | 0x21 => row (rd == 0 && !cu) (.mulu ra rb)
  | 0x22 => row (rd == 0 && !cu) (.div ra rb)
  | 0x23 => row (rd == 0 && !cu) (.divu ra rb)
  | 0x24 =>
    match rb.toNat with
    | 0 => row (ra == 0 && !cu) (.mfcex0 rd)
    | 1 => row (ra == 0 && !cu) (.mfcel rd)
    | 2 => row (ra == 0 && !cu) (.mfceh rd)
    | 3 => row (!cu) (.mfcehl rd ra)
    | _ => none
  | 0x25 =>
    match rb.toNat with
    | 0 => row (ra == 0 && !cu) (.mtcex0 rd)
    | 1 => row (ra == 0 && !cu) (.mtcel rd)
    | 2 => row (ra == 0 && !cu) (.mtceh rd)
    | 3 => row (!cu) (.mtcehl rd ra)
    | _ => none
  | 0x28 => row (ra == 0 && !cu && srnDefined rb) (.mfsr rd rb)
  | 0x29 => row (rd == 0 && !cu && srnDefined rb) (.mtsr ra rb)
  | 0x2A => row (rd == 0 && ra == 0 && !bit14 && !cu) (.tCond cond)
  | 0x2B => row (!bit14 && !cu) (.mvCond cond rd ra)
  | 0x2C => row (rb == 0) (.extsb rd ra cu)
  | 0x2D => row (rb == 0) (.extsh rd ra cu)
  | 0x2E => row (rb == 0) (.extzb rd ra cu)
  | 0x2F => row (rb == 0) (.extzh rd ra cu)
  | 0x30 => row (rd == 0 && rb == 0 && !cu) (.lcb ra)
  | 0x31 => row (rb == 0 && !cu) (.lcw rd ra)
  | 0x33 => row (rb == 0 && !cu) (.lce rd ra)
  | 0x34 => row (rb == 0 && !cu) (.scb rd ra)
  | 0x35 => row (rb == 0 && !cu) (.scw rd ra)
  | 0x37 => row (rd == 0 && rb == 0 && !cu) (.sce ra)
  | 0x38 => some (.slli rd ra rb cu)
  | 0x3A => some (.srli rd ra rb cu)
  | 0x3B => some (.srai rd ra rb cu)
  | 0x3C => some (.rori rd ra rb cu)
  | 0x3D => row cu (.roric rd ra rb)
  | 0x3E => some (.roli rd ra rb cu)
  | 0x3F => row cu (.rolic rd ra rb)
  | _ => none

/-- I form with OP = 00001 (R132): func3 in bits 19:17. -/
def decodeImmediate (m : BitVec 30) : Option Instr :=
  let rd := m.extractLsb' 20 5
  let imm := m.extractLsb' 1 16
  let cu := m.getLsbD 0
  match (m.extractLsb' 17 3).toNat with
  | 0 => some (.addi rd imm cu)
  | 2 => row cu (.cmpi rd imm)
  | 4 => some (.andi rd imm cu)
  | 5 => some (.ori rd imm cu)
  | 6 => row (!cu) (.ldi rd imm)
  | _ => none

/-- I form with OP = 00101, the immediates of the upper half (R132). -/
def decodeUpperImmediate (m : BitVec 30) : Option Instr :=
  let rd := m.extractLsb' 20 5
  let imm := m.extractLsb' 1 16
  let cu := m.getLsbD 0
  match (m.extractLsb' 17 3).toNat with
  | 0 => some (.addis rd imm cu)
  | 4 => some (.andis rd imm cu)
  | 5 => some (.oris rd imm cu)
  | 6 => row (!cu) (.ldis rd imm)
  | _ => none

/-- RIX form with OP = 00011, pre-index (R133). -/
def decodePreIndex (m : BitVec 30) : Instr :=
  let rd := m.extractLsb' 20 5
  let ra := m.extractLsb' 15 5
  let imm := m.extractLsb' 3 12
  match (m.extractLsb' 0 3).toNat with
  | 0 => .lwPre rd ra imm
  | 1 => .lhPre rd ra imm
  | 2 => .lhuPre rd ra imm
  | 3 => .lbPre rd ra imm
  | 4 => .swPre rd ra imm
  | 5 => .shPre rd ra imm
  | 6 => .lbuPre rd ra imm
  | _ => .sbPre rd ra imm

/-- RIX form with OP = 00111, post-index (R133). -/
def decodePostIndex (m : BitVec 30) : Instr :=
  let rd := m.extractLsb' 20 5
  let ra := m.extractLsb' 15 5
  let imm := m.extractLsb' 3 12
  match (m.extractLsb' 0 3).toNat with
  | 0 => .lwPost rd ra imm
  | 1 => .lhPost rd ra imm
  | 2 => .lhuPost rd ra imm
  | 3 => .lbPost rd ra imm
  | 4 => .swPost rd ra imm
  | 5 => .shPost rd ra imm
  | 6 => .lbuPost rd ra imm
  | _ => .sbPost rd ra imm

/-- OP = 00110 with CP# = 00: the control-register and system instructions (R134). -/
def decodeControl (m : BitVec 30) : Option Instr :=
  let rd := m.extractLsb' 20 5
  let crn := m.extractLsb' 15 5
  if m.extractLsb' 8 7 != 0 then none else
  match (m.extractLsb' 0 8).toNat with
  | 0x00 => some (.mtcr rd crn)
  | 0x01 => some (.mfcr rd crn)
  | 0x84 => row (rd == 0 && crn == 0) .rte
  | 0xA4 => row (rd == 0 && crn == 0) .drte
  | 0xC4 => row (rd == 0 && crn == 0) .sleep
  | _ => none

/-- OP = 00110 with CP# not 00: the coprocessor instructions by Sub-OP, bits 2:0 (R134). -/
def decodeCoprocessor (m : BitVec 30) : Option Instr :=
  let n := m.extractLsb' 3 2
  let rd := m.extractLsb' 20 5
  let cra := m.extractLsb' 15 5
  let imm := m.extractLsb' 5 10
  match (m.extractLsb' 0 3).toNat with
  | 0 => row (imm == 0) (.mtc n rd cra)
  | 1 => row (imm == 0) (.mfc n rd cra)
  | 2 => some (.ldc n rd cra imm)
  | 3 => some (.stc n rd cra imm)
  | 4 => some (.cop n (m.extractLsb' 5 20))
  | 6 => row (imm == 0) (.mtcc n rd cra)
  | 7 => row (imm == 0) (.mfcc n rd cra)
  | _ => none

/-- OP = 11100, the enhanced-MAC form, by bits 9:0 = H, Z, F, S, U, func5 (R135). -/
def decodeMac (m : BitVec 30) : Option Instr :=
  let rd := m.extractLsb' 20 5
  let ra := m.extractLsb' 15 5
  let rb := m.extractLsb' 10 5
  match (m.extractLsb' 0 10).toNat with
  | 0x000 => row (rd == 0) (.mad ra rb)
  | 0x020 => row (rd == 0) (.madu ra rb)
  | 0x080 => row (rd == 0) (.madF ra rb)
  | 0x001 => row (rd == 0) (.msb ra rb)
  | 0x021 => row (rd == 0) (.msbu ra rb)
  | 0x081 => row (rd == 0) (.msbF ra rb)
  | 0x102 => row (rd == 0) (.mazl ra rb)
  | 0x182 => row (rd == 0) (.mazlF ra rb)
  | 0x002 => row (rd == 0) (.madl ra rb)
  | 0x0C2 => row (rd == 0) (.madlFs ra rb)
  | 0x104 => row (rd == 0) (.mszl ra rb)
  | 0x184 => row (rd == 0) (.mszlF ra rb)
  | 0x004 => row (rd == 0) (.msbl ra rb)
  | 0x0C4 => row (rd == 0) (.msblFs ra rb)
  | 0x303 => row (rd == 0) (.mazh ra rb)
  | 0x383 => row (rd == 0) (.mazhF ra rb)
  | 0x203 => row (rd == 0) (.madh ra rb)
  | 0x2C3 => row (rd == 0) (.madhFs ra rb)
  | 0x305 => row (rd == 0) (.mszh ra rb)
  | 0x385 => row (rd == 0) (.mszhF ra rb)
  | 0x205 => row (rd == 0) (.msbh ra rb)
  | 0x2C5 => row (rd == 0) (.msbhFs ra rb)
  | 0x006 => some (.min rd ra rb)
  | 0x007 => some (.max rd ra rb)
  | 0x048 => some (.addS rd ra rb)
  | 0x049 => some (.subS rd ra rb)
  | 0x00A => row (rb == 0) (.abs rd ra)
  | 0x04B => row (rb == 0) (.absS rd ra)
  | 0x00C => some (.bitrev rd ra rb)
  | 0x00D => row (rb == 0) (.clz rd ra)
  | 0x04E => some (.sllS rd ra rb)
  | _ => none

/-- The instruction of an effective 30-bit value, by the main opcode in bits 29:25 (R130). -/
def decode32 (m : BitVec 30) : Option Instr :=
  let rd := m.extractLsb' 20 5
  let ra := m.extractLsb' 15 5
  let imm15 := m.extractLsb' 0 15
  let imm14 := m.extractLsb' 1 14
  let bit0 := m.getLsbD 0
  match (m.extractLsb' 25 5).toNat with
  | 0b00000 => decodeSpecial m
  | 0b00001 => decodeImmediate m
  | 0b00010 => some (if bit0 then .jl (m.extractLsb' 1 24) else .j (m.extractLsb' 1 24))
  | 0b00011 => some (decodePreIndex m)
  | 0b00100 =>
    let bc := m.extractLsb' 10 5
    let disp := m.extractLsb' 15 10 ++ m.extractLsb' 1 9
    let cond := Cond.ofCode (bc.extractLsb' 0 4)
    row (!bc.getLsbD 4) (if bit0 then .bCondL cond disp else .bCond cond disp)
  | 0b00101 => decodeUpperImmediate m
  | 0b00110 => if m.extractLsb' 3 2 == 0 then decodeControl m else decodeCoprocessor m
  | 0b00111 => some (decodePostIndex m)
  | 0b01000 => some (.addri rd ra imm14 bit0)
  | 0b01100 => some (.andri rd ra imm14 bit0)
  | 0b01101 => some (.orri rd ra imm14 bit0)
  | 0b10000 => some (.lw rd ra imm15)
  | 0b10001 => some (.lh rd ra imm15)
  | 0b10010 => some (.lhu rd ra imm15)
  | 0b10011 => some (.lb rd ra imm15)
  | 0b10100 => some (.sw rd ra imm15)
  | 0b10101 => some (.sh rd ra imm15)
  | 0b10110 => some (.lbu rd ra imm15)
  | 0b10111 => some (.sb rd ra imm15)
  | 0b11000 => some (.cache rd ra imm15)
  | 0b11010 => some (.ceinst (m.extractLsb' 0 5) ra (m.extractLsb' 10 5) rd (m.extractLsb' 5 5))
  | 0b11100 => decodeMac m
  | _ => none

/-! ## The 16-bit opcode map (R127, R140 to R145, R600) -/

/-- OP = 000, by func4 (R141). -/
def decode16Misc (h : BitVec 15) : Option Instr :=
  let rd := h.extractLsb' 8 4
  let ra := h.extractLsb' 4 4
  match (h.extractLsb' 0 4).toNat with
  | 0x0 => row (rd == 0 && ra == 0) .nop16
  | 0x1 => some (.mlfh16 rd ra)
  | 0x2 => some (.mhfl16 rd ra)
  | 0x3 => some (.mv16 rd ra)
  | 0x4 => some (.brCond16 (Cond.ofCode rd) ra)
  | 0x5 => row (ra == 0) (.tCond16 (Cond.ofCode rd))
  | 0x8 => some (.sll16 rd ra)
  | 0x9 => some (.addc16 rd ra)
  | 0xA => some (.srl16 rd ra)
  | 0xB => some (.sra16 rd ra)
  | _ => none

/-- OP = 001, the custom-engine instructions, by func4 (R142, R600). -/
def decode16Ce (h : BitVec 15) : Option Instr :=
  let ra := h.extractLsb' 8 4
  let rb := h.extractLsb' 4 4
  match (h.extractLsb' 0 4).toNat with
  | 0x0 => if ra == 0 then some (.mtcel16 rb) else row (ra == 1) (.mtceh16 rb)
  | 0x1 => if ra == 0 then some (.mfcel16 rb) else row (ra == 1) (.mfceh16 rb)
  | 0x2 => some (.mulF16 ra rb)
  | 0x3 => some (.mulu16 ra rb)
  | 0x4 => some (.madF16 ra rb)
  | 0x5 => some (.madu16 ra rb)
  | 0x6 => some (.msbF16 ra rb)
  | 0x7 => some (.msbu16 ra rb)
  | 0x8 => some (.mazlF16 ra rb)
  | 0x9 => some (.mazhF16 ra rb)
  | 0xA => some (.madlFs16 ra rb)
  | 0xB => some (.madhFs16 ra rb)
  | 0xC => some (.mszlF16 ra rb)
  | 0xD => some (.mszhF16 ra rb)
  | 0xE => some (.msblFs16 ra rb)
  | _ => some (.msbhFs16 ra rb)

/-- OP = 010, by func4 (R143). -/
def decode16Alu (h : BitVec 15) : Instr :=
  let rd := h.extractLsb' 8 4
  let ra := h.extractLsb' 4 4
  let hi := ra.getLsbD 3
  let base := ra.extractLsb' 0 3
  match (h.extractLsb' 0 4).toNat with
  | 0x0 => .add16 rd ra
  | 0x1 => .sub16 rd ra
  | 0x2 => .neg16 rd ra
  | 0x3 => .cmp16 rd ra
  | 0x4 => .and16 rd ra
  | 0x5 => .or16 rd ra
  | 0x6 => .not16 rd ra
  | 0x7 => .xor16 rd ra
  | 0x8 => .lw16 rd ra
  | 0x9 => .lh16 rd ra
  | 0xA => .pop16 rd hi base
  | 0xB => .lbu16 rd ra
  | 0xC => .sw16 rd ra
  | 0xD => .sh16 rd ra
  | 0xE => .push16 rd hi base
  | _ => .sb16 rd ra

/-- OP = 110, by func3 (R144). -/
def decode16Imm (h : BitVec 15) : Option Instr :=
  let rd := h.extractLsb' 8 4
  let imm := h.extractLsb' 3 5
  match (h.extractLsb' 0 3).toNat with
  | 0 => some (if imm.getLsbD 4 then .subei16 rd (imm.extractLsb' 0 4) else .addei16 rd (imm.extractLsb' 0 4))
  | 1 => some (.slli16 rd imm)
  | 2 => row (rd == 0) (.sdbbp16 imm)
  | 3 => some (.srli16 rd imm)
  | 7 => some (.bittst16 rd imm)
  | _ => none

/-- OP = 111, the base-pointer loads and stores, by func3 (R145). -/
def decode16Base (h : BitVec 15) : Option Instr :=
  let rd := h.extractLsb' 8 4
  let imm := h.extractLsb' 3 5
  match (h.extractLsb' 0 3).toNat with
  | 0 => some (.lwp16 rd imm)
  | 1 => some (.lhp16 rd imm)
  | 3 => some (.lbup16 rd imm)
  | 4 => some (.swp16 rd imm)
  | 5 => some (.shp16 rd imm)
  | 7 => some (.sbp16 rd imm)
  | _ => none

/-- The instruction of an effective 15-bit value, by the main opcode in bits 14:12 (R140). -/
def decode16 (h : BitVec 15) : Option Instr :=
  match (h.extractLsb' 12 3).toNat with
  | 0 => decode16Misc h
  | 1 => decode16Ce h
  | 2 => some (decode16Alu h)
  | 3 => some (if h.getLsbD 0 then .jl16 (h.extractLsb' 1 11) else .j16 (h.extractLsb' 1 11))
  | 4 => some (.bCond16 (Cond.ofCode (h.extractLsb' 8 4)) (h.extractLsb' 0 8))
  | 5 => some (.ldiu16 (h.extractLsb' 8 4) (h.extractLsb' 0 8))
  | 6 => decode16Imm h
  | _ => decode16Base h

/-! ## From memory to instructions (R83, R121, R123) -/

/-- The answer of an opcode map, with a value that matches no row rejected (R170). -/
def orReserved : Option Instr → Except DecodeError Instr
  | some i => .ok i
  | none => .error .reserved

/-- R123: `h0` is the half-word at pc and `h1` the one at pc + 2, which matters only where bit 15 of `h0` is 1. In big endian `h0` is the high half of a 32-bit instruction, in little endian `h1` is. -/
def decode (littleEndian : Bool) (h0 h1 : Half) : Except DecodeError Instr :=
  if !h0.getLsbD 15 then orReserved (decode16 (h0.extractLsb' 0 15))
  else if !h1.getLsbD 15 then .error .pcePair
  else
    let hi := if littleEndian then h1 else h0
    let lo := if littleEndian then h0 else h1
    orReserved (decode32 (hi.extractLsb' 0 15 ++ lo.extractLsb' 0 15))

/-- The half-word that two bytes hold, the first at the lower address (R81). -/
def halfOfBytes (littleEndian : Bool) (b0 b1 : Byte) : Half :=
  if littleEndian then b1 ++ b0 else b0 ++ b1

/-- The two bytes of a half-word, the first for the lower address (R81). -/
def bytesOfHalf (littleEndian : Bool) (h : Half) : List Byte :=
  if littleEndian then [h.extractLsb' 0 8, h.extractLsb' 8 8] else [h.extractLsb' 8 8, h.extractLsb' 0 8]

/-- The decoder over the bytes of memory from an instruction's address on: the instruction and the bytes after it. -/
def decodeBytes (littleEndian : Bool) : List Byte → Except DecodeError (Instr × List Byte)
  | b0 :: b1 :: rest =>
    let h0 := halfOfBytes littleEndian b0 b1
    if !h0.getLsbD 15 then (decode littleEndian h0 0).map (·, rest)
    else
      match rest with
      | b2 :: b3 :: rest => (decode littleEndian h0 (halfOfBytes littleEndian b2 b3)).map (·, rest)
      | _ => .error .truncated
  | _ => .error .truncated

/-! ## The encoder -/

/-- Special form (R126): OP = 00000, rD, rA, rB, 000, func6, and CU (or LK) in bit 0. -/
def specialForm (rd ra rb : BitVec 5) (func6 : BitVec 6) (b0 : BitVec 1) : BitVec 30 :=
  0b00000#5 ++ rd ++ ra ++ rb ++ 0b000#3 ++ func6 ++ b0

/-- The Special form of `syscall`, whose Imm15 takes the three register fields (R131). -/
def specialImmForm (imm : BitVec 15) (func6 : BitVec 6) (b0 : BitVec 1) : BitVec 30 :=
  0b00000#5 ++ imm ++ 0b000#3 ++ func6 ++ b0

/-- I form (R126). -/
def iForm (op rd : BitVec 5) (func3 : BitVec 3) (imm : BitVec 16) (b0 : BitVec 1) : BitVec 30 :=
  op ++ rd ++ func3 ++ imm ++ b0

/-- RI form (R126). -/
def riForm (op rd ra : BitVec 5) (imm : BitVec 14) (b0 : BitVec 1) : BitVec 30 :=
  op ++ rd ++ ra ++ imm ++ b0

/-- RIX form (R126). -/
def rixForm (op rd ra : BitVec 5) (imm : BitVec 12) (func3 : BitVec 3) : BitVec 30 :=
  op ++ rd ++ ra ++ imm ++ func3

/-- Memory form (R126); `cache` has its cache_op in the place of rD. -/
def memoryForm (op rd ra : BitVec 5) (imm : BitVec 15) : BitVec 30 :=
  op ++ rd ++ ra ++ imm

/-- J form (R126). -/
def jForm (disp : BitVec 24) (lk : BitVec 1) : BitVec 30 :=
  0b00010#5 ++ disp ++ lk

/-- BC form (R126): Disp[18:9], the 5-bit slot of BC, Disp[8:0], LK. -/
def bcForm (disp : BitVec 19) (bc : BitVec 5) (lk : BitVec 1) : BitVec 30 :=
  0b00100#5 ++ disp.extractLsb' 9 10 ++ bc ++ disp.extractLsb' 0 9 ++ lk

/-- CR form (R126). -/
def crForm (rd crn : BitVec 5) (crOp : BitVec 8) : BitVec 30 :=
  0b00110#5 ++ rd ++ crn ++ 0b0000000#7 ++ crOp

/-- The mtc/mfc and ldc/stc forms (R126), with Imm10 = 0 for the moves. -/
def copMoveForm (rd cra : BitVec 5) (imm : BitVec 10) (n : BitVec 2) (subOp : BitVec 3) : BitVec 30 :=
  0b00110#5 ++ rd ++ cra ++ imm ++ n ++ subOp

/-- The cop form with its 20-bit code (R126). -/
def copForm (code : BitVec 20) (n : BitVec 2) : BitVec 30 :=
  0b00110#5 ++ code ++ n ++ 0b100#3

/-- CENew form (R126). -/
def ceForm (usd1 ra rb usd2 func5 : BitVec 5) : BitVec 30 :=
  0b11010#5 ++ usd1 ++ ra ++ rb ++ usd2 ++ func5

/-- The MAC form (R126, R135): `low` is H, Z, F, S, U, func5. -/
def macForm (rd ra rb : BitVec 5) (low : BitVec 10) : BitVec 30 :=
  0b11100#5 ++ rd ++ ra ++ rb ++ low

/-- R form of the 16-bit set (R127). -/
def rForm16 (op : BitVec 3) (rd ra func4 : BitVec 4) : BitVec 15 :=
  op ++ rd ++ ra ++ func4

/-- I-form-1 (R127). -/
def iForm16 (op : BitVec 3) (rd : BitVec 4) (imm : BitVec 5) (func3 : BitVec 3) : BitVec 15 :=
  op ++ rd ++ imm ++ func3

/-- I-form-2 and the B<cond>x form (R127). -/
def wideForm16 (op : BitVec 3) (rd : BitVec 4) (imm : BitVec 8) : BitVec 15 :=
  op ++ rd ++ imm

/-- J form of the 16-bit set (R127). -/
def jForm16 (disp : BitVec 11) (lk : BitVec 1) : BitVec 15 :=
  0b011#3 ++ disp ++ lk

/-- An effective instruction: 30 or 15 bits, without its P bits (R120). -/
inductive Effective where
  | long (m : BitVec 30)
  | short (h : BitVec 15)
deriving DecidableEq, Repr

/-- The pattern of the instruction's row in spec/opcode_table.json, its fields filled in. -/
def Instr.effective : Instr → Effective
  | .nop => .long (specialForm 0b00000#5 0b00000#5 0b00000#5 0b000000#6 0b0#1)
  | .syscall imm => .long (specialImmForm imm 0b000001#6 0b0#1)
  | .trapCond c imm => .long (specialForm 0b00000#5 imm (0b0#1 ++ c.code) 0b000010#6 0b0#1)
  | .sdbbp code => .long (specialForm 0b00000#5 code 0b00000#5 0b000011#6 0b0#1)
  | .brCond c ra => .long (specialForm 0b00000#5 ra (0b0#1 ++ c.code) 0b000100#6 0b0#1)
  | .brCondL c ra => .long (specialForm 0b00000#5 ra (0b0#1 ++ c.code) 0b000100#6 0b1#1)
  | .pflush => .long (specialForm 0b00000#5 0b00000#5 0b00000#5 0b000101#6 0b0#1)
  | .add rd ra rb cu => .long (specialForm rd ra rb 0b001000#6 (BitVec.ofBool cu))
  | .addc rd ra rb cu => .long (specialForm rd ra rb 0b001001#6 (BitVec.ofBool cu))
  | .sub rd ra rb cu => .long (specialForm rd ra rb 0b001010#6 (BitVec.ofBool cu))
  | .subc rd ra rb cu => .long (specialForm rd ra rb 0b001011#6 (BitVec.ofBool cu))
  | .cmp tcs ra rb => .long (specialForm (0b000#3 ++ tcs.code) ra rb 0b001100#6 0b1#1)
  | .cmpz tcs ra => .long (specialForm (0b000#3 ++ tcs.code) ra 0b00000#5 0b001101#6 0b1#1)
  | .neg rd rb cu => .long (specialForm rd 0b00000#5 rb 0b001111#6 (BitVec.ofBool cu))
  | .and rd ra rb cu => .long (specialForm rd ra rb 0b010000#6 (BitVec.ofBool cu))
  | .or rd ra rb cu => .long (specialForm rd ra rb 0b010001#6 (BitVec.ofBool cu))
  | .not rd ra cu => .long (specialForm rd ra 0b00000#5 0b010010#6 (BitVec.ofBool cu))
  | .xor rd ra rb cu => .long (specialForm rd ra rb 0b010011#6 (BitVec.ofBool cu))
  | .bittst ra bn => .long (specialForm 0b00000#5 ra bn 0b010110#6 0b1#1)
  | .sll rd ra rb cu => .long (specialForm rd ra rb 0b011000#6 (BitVec.ofBool cu))
  | .srl rd ra rb cu => .long (specialForm rd ra rb 0b011010#6 (BitVec.ofBool cu))
  | .sra rd ra rb cu => .long (specialForm rd ra rb 0b011011#6 (BitVec.ofBool cu))
  | .ror rd ra rb cu => .long (specialForm rd ra rb 0b011100#6 (BitVec.ofBool cu))
  | .rol rd ra rb cu => .long (specialForm rd ra rb 0b011110#6 (BitVec.ofBool cu))
  | .rorc rd ra rb => .long (specialForm rd ra rb 0b011101#6 0b1#1)
  | .rolc rd ra rb => .long (specialForm rd ra rb 0b011111#6 0b1#1)
  | .mul ra rb => .long (specialForm 0b00000#5 ra rb 0b100000#6 0b0#1)
  | .mulF ra rb => .long (specialForm 0b00000#5 ra rb 0b100000#6 0b1#1)
  | .mulu ra rb => .long (specialForm 0b00000#5 ra rb 0b100001#6 0b0#1)
  | .div ra rb => .long (specialForm 0b00000#5 ra rb 0b100010#6 0b0#1)
  | .divu ra rb => .long (specialForm 0b00000#5 ra rb 0b100011#6 0b0#1)
  | .mfcel rd => .long (specialForm rd 0b00000#5 0b00001#5 0b100100#6 0b0#1)
  | .mfceh rd => .long (specialForm rd 0b00000#5 0b00010#5 0b100100#6 0b0#1)
  | .mfcehl rd ra => .long (specialForm rd ra 0b00011#5 0b100100#6 0b0#1)
  | .mfcex0 rd => .long (specialForm rd 0b00000#5 0b00000#5 0b100100#6 0b0#1)
  | .mtcel rd => .long (specialForm rd 0b00000#5 0b00001#5 0b100101#6 0b0#1)
  | .mtceh rd => .long (specialForm rd 0b00000#5 0b00010#5 0b100101#6 0b0#1)
  | .mtcehl rd ra => .long (specialForm rd ra 0b00011#5 0b100101#6 0b0#1)
  | .mtcex0 rd => .long (specialForm rd 0b00000#5 0b00000#5 0b100101#6 0b0#1)
  | .mfsr rd srn => .long (specialForm rd 0b00000#5 srn 0b101000#6 0b0#1)
  | .mtsr ra srn => .long (specialForm 0b00000#5 ra srn 0b101001#6 0b0#1)
  | .tCond c => .long (specialForm 0b00000#5 0b00000#5 (0b0#1 ++ c.code) 0b101010#6 0b0#1)
  | .mvCond c rd ra => .long (specialForm rd ra (0b0#1 ++ c.code) 0b101011#6 0b0#1)
  | .extsb rd ra cu => .long (specialForm rd ra 0b00000#5 0b101100#6 (BitVec.ofBool cu))
  | .extsh rd ra cu => .long (specialForm rd ra 0b00000#5 0b101101#6 (BitVec.ofBool cu))
  | .extzb rd ra cu => .long (specialForm rd ra 0b00000#5 0b101110#6 (BitVec.ofBool cu))
  | .extzh rd ra cu => .long (specialForm rd ra 0b00000#5 0b101111#6 (BitVec.ofBool cu))
  | .lcb ra => .long (specialForm 0b00000#5 ra 0b00000#5 0b110000#6 0b0#1)
  | .lcw rd ra => .long (specialForm rd ra 0b00000#5 0b110001#6 0b0#1)
  | .lce rd ra => .long (specialForm rd ra 0b00000#5 0b110011#6 0b0#1)
  | .scb rd ra => .long (specialForm rd ra 0b00000#5 0b110100#6 0b0#1)
  | .scw rd ra => .long (specialForm rd ra 0b00000#5 0b110101#6 0b0#1)
  | .sce ra => .long (specialForm 0b00000#5 ra 0b00000#5 0b110111#6 0b0#1)
  | .slli rd ra sa cu => .long (specialForm rd ra sa 0b111000#6 (BitVec.ofBool cu))
  | .srli rd ra sa cu => .long (specialForm rd ra sa 0b111010#6 (BitVec.ofBool cu))
  | .srai rd ra sa cu => .long (specialForm rd ra sa 0b111011#6 (BitVec.ofBool cu))
  | .rori rd ra sa cu => .long (specialForm rd ra sa 0b111100#6 (BitVec.ofBool cu))
  | .roli rd ra sa cu => .long (specialForm rd ra sa 0b111110#6 (BitVec.ofBool cu))
  | .roric rd ra sa => .long (specialForm rd ra sa 0b111101#6 0b1#1)
  | .rolic rd ra sa => .long (specialForm rd ra sa 0b111111#6 0b1#1)
  | .addi rd imm cu => .long (iForm 0b00001#5 rd 0b000#3 imm (BitVec.ofBool cu))
  | .cmpi rd imm => .long (iForm 0b00001#5 rd 0b010#3 imm 0b1#1)
  | .andi rd imm cu => .long (iForm 0b00001#5 rd 0b100#3 imm (BitVec.ofBool cu))
  | .ori rd imm cu => .long (iForm 0b00001#5 rd 0b101#3 imm (BitVec.ofBool cu))
  | .ldi rd imm => .long (iForm 0b00001#5 rd 0b110#3 imm 0b0#1)
  | .addis rd imm cu => .long (iForm 0b00101#5 rd 0b000#3 imm (BitVec.ofBool cu))
  | .andis rd imm cu => .long (iForm 0b00101#5 rd 0b100#3 imm (BitVec.ofBool cu))
  | .oris rd imm cu => .long (iForm 0b00101#5 rd 0b101#3 imm (BitVec.ofBool cu))
  | .ldis rd imm => .long (iForm 0b00101#5 rd 0b110#3 imm 0b0#1)
  | .j disp => .long (jForm disp 0b0#1)
  | .jl disp => .long (jForm disp 0b1#1)
  | .lwPre rd ra imm => .long (rixForm 0b00011#5 rd ra imm 0b000#3)
  | .lhPre rd ra imm => .long (rixForm 0b00011#5 rd ra imm 0b001#3)
  | .lhuPre rd ra imm => .long (rixForm 0b00011#5 rd ra imm 0b010#3)
  | .lbPre rd ra imm => .long (rixForm 0b00011#5 rd ra imm 0b011#3)
  | .swPre rd ra imm => .long (rixForm 0b00011#5 rd ra imm 0b100#3)
  | .shPre rd ra imm => .long (rixForm 0b00011#5 rd ra imm 0b101#3)
  | .lbuPre rd ra imm => .long (rixForm 0b00011#5 rd ra imm 0b110#3)
  | .sbPre rd ra imm => .long (rixForm 0b00011#5 rd ra imm 0b111#3)
  | .bCond c disp => .long (bcForm disp (0b0#1 ++ c.code) 0b0#1)
  | .bCondL c disp => .long (bcForm disp (0b0#1 ++ c.code) 0b1#1)
  | .lwPost rd ra imm => .long (rixForm 0b00111#5 rd ra imm 0b000#3)
  | .lhPost rd ra imm => .long (rixForm 0b00111#5 rd ra imm 0b001#3)
  | .lhuPost rd ra imm => .long (rixForm 0b00111#5 rd ra imm 0b010#3)
  | .lbPost rd ra imm => .long (rixForm 0b00111#5 rd ra imm 0b011#3)
  | .swPost rd ra imm => .long (rixForm 0b00111#5 rd ra imm 0b100#3)
  | .shPost rd ra imm => .long (rixForm 0b00111#5 rd ra imm 0b101#3)
  | .lbuPost rd ra imm => .long (rixForm 0b00111#5 rd ra imm 0b110#3)
  | .sbPost rd ra imm => .long (rixForm 0b00111#5 rd ra imm 0b111#3)
  | .mtcr rd crn => .long (crForm rd crn 0b00000000#8)
  | .mfcr rd crn => .long (crForm rd crn 0b00000001#8)
  | .rte => .long (crForm 0b00000#5 0b00000#5 0b10000100#8)
  | .drte => .long (crForm 0b00000#5 0b00000#5 0b10100100#8)
  | .sleep => .long (crForm 0b00000#5 0b00000#5 0b11000100#8)
  | .mtc n rd cra => .long (copMoveForm rd cra 0b0000000000#10 n 0b000#3)
  | .mfc n rd cra => .long (copMoveForm rd cra 0b0000000000#10 n 0b001#3)
  | .ldc n rd cra imm => .long (copMoveForm rd cra imm n 0b010#3)
  | .stc n rd cra imm => .long (copMoveForm rd cra imm n 0b011#3)
  | .cop n code => .long (copForm code n)
  | .mtcc n rd cra => .long (copMoveForm rd cra 0b0000000000#10 n 0b110#3)
  | .mfcc n rd cra => .long (copMoveForm rd cra 0b0000000000#10 n 0b111#3)
  | .addri rd ra imm cu => .long (riForm 0b01000#5 rd ra imm (BitVec.ofBool cu))
  | .andri rd ra imm cu => .long (riForm 0b01100#5 rd ra imm (BitVec.ofBool cu))
  | .orri rd ra imm cu => .long (riForm 0b01101#5 rd ra imm (BitVec.ofBool cu))
  | .lw rd ra imm => .long (memoryForm 0b10000#5 rd ra imm)
  | .lh rd ra imm => .long (memoryForm 0b10001#5 rd ra imm)
  | .lhu rd ra imm => .long (memoryForm 0b10010#5 rd ra imm)
  | .lb rd ra imm => .long (memoryForm 0b10011#5 rd ra imm)
  | .sw rd ra imm => .long (memoryForm 0b10100#5 rd ra imm)
  | .sh rd ra imm => .long (memoryForm 0b10101#5 rd ra imm)
  | .lbu rd ra imm => .long (memoryForm 0b10110#5 rd ra imm)
  | .sb rd ra imm => .long (memoryForm 0b10111#5 rd ra imm)
  | .cache op ra imm => .long (memoryForm 0b11000#5 op ra imm)
  | .ceinst func5 ra rb usd1 usd2 => .long (ceForm usd1 ra rb usd2 func5)
  | .mad ra rb => .long (macForm 0b00000#5 ra rb 0b0000000000#10)
  | .madu ra rb => .long (macForm 0b00000#5 ra rb 0b0000100000#10)
  | .madF ra rb => .long (macForm 0b00000#5 ra rb 0b0010000000#10)
  | .msb ra rb => .long (macForm 0b00000#5 ra rb 0b0000000001#10)
  | .msbu ra rb => .long (macForm 0b00000#5 ra rb 0b0000100001#10)
  | .msbF ra rb => .long (macForm 0b00000#5 ra rb 0b0010000001#10)
  | .mazl ra rb => .long (macForm 0b00000#5 ra rb 0b0100000010#10)
  | .mazlF ra rb => .long (macForm 0b00000#5 ra rb 0b0110000010#10)
  | .madl ra rb => .long (macForm 0b00000#5 ra rb 0b0000000010#10)
  | .madlFs ra rb => .long (macForm 0b00000#5 ra rb 0b0011000010#10)
  | .mszl ra rb => .long (macForm 0b00000#5 ra rb 0b0100000100#10)
  | .mszlF ra rb => .long (macForm 0b00000#5 ra rb 0b0110000100#10)
  | .msbl ra rb => .long (macForm 0b00000#5 ra rb 0b0000000100#10)
  | .msblFs ra rb => .long (macForm 0b00000#5 ra rb 0b0011000100#10)
  | .mazh ra rb => .long (macForm 0b00000#5 ra rb 0b1100000011#10)
  | .mazhF ra rb => .long (macForm 0b00000#5 ra rb 0b1110000011#10)
  | .madh ra rb => .long (macForm 0b00000#5 ra rb 0b1000000011#10)
  | .madhFs ra rb => .long (macForm 0b00000#5 ra rb 0b1011000011#10)
  | .mszh ra rb => .long (macForm 0b00000#5 ra rb 0b1100000101#10)
  | .mszhF ra rb => .long (macForm 0b00000#5 ra rb 0b1110000101#10)
  | .msbh ra rb => .long (macForm 0b00000#5 ra rb 0b1000000101#10)
  | .msbhFs ra rb => .long (macForm 0b00000#5 ra rb 0b1011000101#10)
  | .min rd ra rb => .long (macForm rd ra rb 0b0000000110#10)
  | .max rd ra rb => .long (macForm rd ra rb 0b0000000111#10)
  | .addS rd ra rb => .long (macForm rd ra rb 0b0001001000#10)
  | .subS rd ra rb => .long (macForm rd ra rb 0b0001001001#10)
  | .abs rd ra => .long (macForm rd ra 0b00000#5 0b0000001010#10)
  | .absS rd ra => .long (macForm rd ra 0b00000#5 0b0001001011#10)
  | .bitrev rd ra rb => .long (macForm rd ra rb 0b0000001100#10)
  | .clz rd ra => .long (macForm rd ra 0b00000#5 0b0000001101#10)
  | .sllS rd ra rb => .long (macForm rd ra rb 0b0001001110#10)
  | .nop16 => .short (rForm16 0b000#3 0b0000#4 0b0000#4 0b0000#4)
  | .mlfh16 rd ra => .short (rForm16 0b000#3 rd ra 0b0001#4)
  | .mhfl16 rd ra => .short (rForm16 0b000#3 rd ra 0b0010#4)
  | .mv16 rd ra => .short (rForm16 0b000#3 rd ra 0b0011#4)
  | .brCond16 c ra => .short (rForm16 0b000#3 c.code ra 0b0100#4)
  | .tCond16 c => .short (rForm16 0b000#3 c.code 0b0000#4 0b0101#4)
  | .sll16 rd ra => .short (rForm16 0b000#3 rd ra 0b1000#4)
  | .addc16 rd ra => .short (rForm16 0b000#3 rd ra 0b1001#4)
  | .srl16 rd ra => .short (rForm16 0b000#3 rd ra 0b1010#4)
  | .sra16 rd ra => .short (rForm16 0b000#3 rd ra 0b1011#4)
  | .mtcel16 ra => .short (rForm16 0b001#3 0b0000#4 ra 0b0000#4)
  | .mtceh16 ra => .short (rForm16 0b001#3 0b0001#4 ra 0b0000#4)
  | .mfcel16 ra => .short (rForm16 0b001#3 0b0000#4 ra 0b0001#4)
  | .mfceh16 ra => .short (rForm16 0b001#3 0b0001#4 ra 0b0001#4)
  | .mulF16 ra rb => .short (rForm16 0b001#3 ra rb 0b0010#4)
  | .mulu16 ra rb => .short (rForm16 0b001#3 ra rb 0b0011#4)
  | .madF16 ra rb => .short (rForm16 0b001#3 ra rb 0b0100#4)
  | .madu16 ra rb => .short (rForm16 0b001#3 ra rb 0b0101#4)
  | .msbF16 ra rb => .short (rForm16 0b001#3 ra rb 0b0110#4)
  | .msbu16 ra rb => .short (rForm16 0b001#3 ra rb 0b0111#4)
  | .mazlF16 ra rb => .short (rForm16 0b001#3 ra rb 0b1000#4)
  | .mazhF16 ra rb => .short (rForm16 0b001#3 ra rb 0b1001#4)
  | .madlFs16 ra rb => .short (rForm16 0b001#3 ra rb 0b1010#4)
  | .madhFs16 ra rb => .short (rForm16 0b001#3 ra rb 0b1011#4)
  | .mszlF16 ra rb => .short (rForm16 0b001#3 ra rb 0b1100#4)
  | .mszhF16 ra rb => .short (rForm16 0b001#3 ra rb 0b1101#4)
  | .msblFs16 ra rb => .short (rForm16 0b001#3 ra rb 0b1110#4)
  | .msbhFs16 ra rb => .short (rForm16 0b001#3 ra rb 0b1111#4)
  | .add16 rd ra => .short (rForm16 0b010#3 rd ra 0b0000#4)
  | .sub16 rd ra => .short (rForm16 0b010#3 rd ra 0b0001#4)
  | .neg16 rd ra => .short (rForm16 0b010#3 rd ra 0b0010#4)
  | .cmp16 rd ra => .short (rForm16 0b010#3 rd ra 0b0011#4)
  | .and16 rd ra => .short (rForm16 0b010#3 rd ra 0b0100#4)
  | .or16 rd ra => .short (rForm16 0b010#3 rd ra 0b0101#4)
  | .not16 rd ra => .short (rForm16 0b010#3 rd ra 0b0110#4)
  | .xor16 rd ra => .short (rForm16 0b010#3 rd ra 0b0111#4)
  | .lw16 rd ra => .short (rForm16 0b010#3 rd ra 0b1000#4)
  | .lh16 rd ra => .short (rForm16 0b010#3 rd ra 0b1001#4)
  | .pop16 rd h base => .short (rForm16 0b010#3 rd (BitVec.ofBool h ++ base) 0b1010#4)
  | .lbu16 rd ra => .short (rForm16 0b010#3 rd ra 0b1011#4)
  | .sw16 rd ra => .short (rForm16 0b010#3 rd ra 0b1100#4)
  | .sh16 rd ra => .short (rForm16 0b010#3 rd ra 0b1101#4)
  | .push16 rd h base => .short (rForm16 0b010#3 rd (BitVec.ofBool h ++ base) 0b1110#4)
  | .sb16 rd ra => .short (rForm16 0b010#3 rd ra 0b1111#4)
  | .j16 disp => .short (jForm16 disp 0b0#1)
  | .jl16 disp => .short (jForm16 disp 0b1#1)
  | .bCond16 c disp => .short (wideForm16 0b100#3 c.code disp)
  | .ldiu16 rd imm => .short (wideForm16 0b101#3 rd imm)
  | .addei16 rd exp => .short (iForm16 0b110#3 rd (0b0#1 ++ exp) 0b000#3)
  | .subei16 rd exp => .short (iForm16 0b110#3 rd (0b1#1 ++ exp) 0b000#3)
  | .slli16 rd sa => .short (iForm16 0b110#3 rd sa 0b001#3)
  | .sdbbp16 code => .short (iForm16 0b110#3 0b0000#4 code 0b010#3)
  | .srli16 rd sa => .short (iForm16 0b110#3 rd sa 0b011#3)
  | .bittst16 rd bn => .short (iForm16 0b110#3 rd bn 0b111#3)
  | .lwp16 rd imm => .short (iForm16 0b111#3 rd imm 0b000#3)
  | .lhp16 rd imm => .short (iForm16 0b111#3 rd imm 0b001#3)
  | .lbup16 rd imm => .short (iForm16 0b111#3 rd imm 0b011#3)
  | .swp16 rd imm => .short (iForm16 0b111#3 rd imm 0b100#3)
  | .shp16 rd imm => .short (iForm16 0b111#3 rd imm 0b101#3)
  | .sbp16 rd imm => .short (iForm16 0b111#3 rd imm 0b111#3)

/-- The half-words of an effective instruction with its P bits in place, the first for the lower address (R83, R121). -/
def Effective.halves (littleEndian : Bool) : Effective → List Half
  | .long m =>
    let hi : Half := 1#1 ++ m.extractLsb' 15 15
    let lo : Half := 1#1 ++ m.extractLsb' 0 15
    if littleEndian then [lo, hi] else [hi, lo]
  | .short h => [0#1 ++ h]

/-- The half-words of an instruction, as they stand in memory. -/
def encode (littleEndian : Bool) (i : Instr) : List Half := i.effective.halves littleEndian

/-- The bytes of an instruction, as they stand in memory. -/
def encodeBytes (littleEndian : Bool) (i : Instr) : List Byte :=
  (encode littleEndian i).flatMap (bytesOfHalf littleEndian)

/-! ## The words of the opcode table (log 33) -/

/-- The half-words of an instruction given by `nbits` bits `w` as spec/opcode_table.json numbers them: the bits of a 16-bit half-word, or of an effective 32-bit instruction (R177), whose P bits are put in place by R121; a 32-bit value with bit 31 set is a whole memory word, P bits included. -/
def tableHalves (littleEndian : Bool) (nbits w : Nat) : List Half :=
  if nbits ≤ 16 then [BitVec.ofNat 16 w]
  else if w.testBit 31 then
    let hi := BitVec.ofNat 16 (w >>> 16)
    let lo := BitVec.ofNat 16 w
    if littleEndian then [lo, hi] else [hi, lo]
  else (Effective.long (BitVec.ofNat 30 w)).halves littleEndian

/-- The bytes of such an instruction, as they stand in memory. -/
def tableBytes (littleEndian : Bool) (nbits w : Nat) : List Byte :=
  (tableHalves littleEndian nbits w).flatMap (bytesOfHalf littleEndian)

/-- The instruction that the decoder reads from an instruction of the opcode table, laid out in big endian, the default byte order (R82). -/
def decodeTableWord (nbits w : Nat) : Option Instr :=
  match decodeBytes false (tableBytes false nbits w) with
  | .ok (i, _) => some i
  | .error _ => none

end Sys2Proof
end

