-- ==== Sys2Proof/Config.lean ====
section
/-! DEFINITION. What the spec leaves to the implementation, the platform and the launch: the types of the launch parameters (00_scope.md R10, 93_implementation_defined.md section 2), the names of the exceptions (60_exceptions.md R681), and the free values, which are opaque constants. -/

namespace Sys2Proof

/-- The five condition flags of R31. -/
structure Flags where
  n : Bool
  z : Bool
  c : Bool
  v : Bool
  t : Bool
deriving DecidableEq, Repr, Inhabited

/-- The exceptions of R681 and the interrupts of R705. -/
inductive Exc where
  /-- External interrupt on one of the lines (R705). -/
  | interrupt (line : BitVec 4)
  /-- Non-maskable interrupt (R705). -/
  | nmi
  /-- AdEL-instruction: address error on a fetch. -/
  | adelInst
  /-- BusErr-Inst: bus error on a fetch. -/
  | busErrInst
  /-- RI: reserved instruction. -/
  | ri
  /-- CCU: control or coprocessor unusable. -/
  | ccu
  /-- CpE: coprocessor execution exception. -/
  | cpe
  /-- CeE: custom engine execution exception. -/
  | cee
  /-- The exception of `syscall`, cause code 7. -/
  | syscall
  /-- The exception of `trap{cond}`, cause code 10. -/
  | trap
  /-- AdEL-data: address error on a load. -/
  | adelData
  /-- AdES: address error on a store. -/
  | ades
  /-- BusErr-Data: bus error on a data access. -/
  | busErrData
deriving DecidableEq, Repr

/-- The kinds of access that MemMap tells apart (R90). -/
inductive AccessKind where
  | fetch | load | store
deriving DecidableEq, Repr

/-- The modes of R710 as MemMap sees them. -/
inductive Mode where
  | user | kernel | debug
deriving DecidableEq, Repr

/-- What MemMap answers (R90). -/
inductive Verdict where
  | ok | busError | addressError
deriving DecidableEq, Repr

/-- One region of the platform's MemMap: the addresses lo..hi, for one kind of access in one mode (R90, R106). -/
structure MapRule where
  lo : Word
  hi : Word
  kind : AccessKind
  mode : Mode
  verdict : Verdict
deriving DecidableEq, Repr

/-- The cause codes that the source does not give (R682); Syscall is 7 and Trap is 10 and neither is a parameter. -/
structure ExcCodes where
  interrupt : BitVec 5
  nmi : BitVec 5
  adelInst : BitVec 5
  busErrInst : BitVec 5
  ccu : BitVec 5
  ri : BitVec 5
  adelData : BitVec 5
  ades : BitVec 5
  cee : BitVec 5
  cpe : BitVec 5
  busErrData : BitVec 5
deriving DecidableEq, Repr

/-- Where an exception's handler stands (R693). DESIGN CHOICE (log 9): one of these two shapes. -/
inductive VectorRule where
  /-- A fixed address. -/
  | fixed (addr : Word)
  /-- The address that has cr3[31:16] above this offset. -/
  | fromBase (offset : BitVec 16)
deriving DecidableEq, Repr

/-- What a CNZ branch does to CNT (R34, parameter CnzSideEffect). -/
inductive CnzSideEffect where
  | none | decIfTaken | decAlways
deriving DecidableEq, Repr

/-- Bit positions of the fields of PSR (R41, R42). -/
structure PsrLayout where
  umc : Fin 32
  ums : Fin 32
  iec : Fin 32
  ies : Fin 32
  cra : Fin 32
  cu1 : Fin 32
  cu2 : Fin 32
  cu3 : Fin 32
deriving DecidableEq, Repr

/-- Bit positions of five flags in the Condition register (R41, R43). -/
structure FlagLayout where
  n : Fin 32
  z : Fin 32
  c : Fin 32
  v : Fin 32
  t : Fin 32
deriving DecidableEq, Repr

/-- Bit positions of the fields of the control registers (parameter CrLayout, R41). The two fields of ECR that are wider than a bit are contiguous and given by the position of their bit 0 (log 6). -/
structure CrLayout where
  psr : PsrLayout
  current : FlagLayout
  saved : FlagLayout
  excCode : Fin 28
  im : Fin 17
  dm : Fin 32
  dbp : Fin 32
  brkSt : Fin 32
deriving DecidableEq, Repr

/-- The launch parameters (R10, 93 section 2), constant during a run (R766). -/
structure Params where
  /-- `LittleEndian` (R81, R82). -/
  littleEndian : Bool
  /-- `MemMap` (R90): the first rule that fits answers; where none fits the answer is ok. -/
  memMap : List MapRule
  /-- `ExcCode` (R682). -/
  excCodes : ExcCodes
  /-- `ExcVector` (R693): the first entry for the exception, else `defaultVector`. -/
  vectors : List (Exc × VectorRule)
  defaultVector : VectorRule
  /-- `CrLayout` (R41). -/
  layout : CrLayout
  /-- `ice_enable` (R408). -/
  iceEnable : Bool
  /-- `sj_probe_en` (R408). -/
  sjProbeEn : Bool
  /-- `HasCoprocessor(1)` (R385). -/
  hasCop1 : Bool
  /-- `HasCoprocessor(2)` (R385). -/
  hasCop2 : Bool
  /-- `HasCoprocessor(3)` (R385). -/
  hasCop3 : Bool
  /-- Bit func5 is 1 when the custom engine implements `ceinst func5` (R395). -/
  ceImplemented : BitVec 32
  /-- `CnzSideEffect` (R34). -/
  cnzSideEffect : CnzSideEffect
  /-- `Jl16LinkOffset` (R458): false is 2, true is 4. -/
  jl16LinkFour : Bool
  /-- `FractionalShift` (R542): true is 1, false is 0. -/
  fractionalShift : Bool
  /-- Whether `mtcr` to cr2 writes Exc_code, which R383 leaves unstated (log 15). -/
  excCodeWritable : Bool
deriving DecidableEq, Repr

/-- The two register files of a coprocessor (R38). -/
structure CopFile where
  data : Vector Word 32
  ctrl : Vector Word 32
deriving DecidableEq, Repr, Inhabited

/-- What `ceinst` does (R395): the custom-engine registers after it, the values it gives the general registers that USD1 and USD2 name (none: not written), and whether it raises CeE. -/
structure CeResult where
  ceh : Word
  cel : Word
  usd1 : Option Word
  usd2 : Option Word
  raises : Bool
deriving DecidableEq, Repr, Inhabited

/-- A FREE VALUE (log 10): the n-th word that the spec calls UNDEFINED (R13). No body, so nothing can be proved of it. -/
opaque Config.freeWord : Nat → Word

/-- A FREE VALUE (log 10): the n-th set of flags of which some are UNDEFINED (R13). -/
opaque Config.freeFlags : Nat → Flags

/-- `CopStep` (R392): what `cop` does to the register files of coprocessor n, and whether it raises CpE. Uninterpreted. -/
opaque Config.copStep : (n : BitVec 2) → (code : BitVec 20) → CopFile → CopFile × Bool

/-- `CeInstStep` (R395): a function of func5, r[rA], r[rB], USD1, USD2, CEH and CEL. Uninterpreted. -/
opaque Config.ceInstStep :
  (func5 : BitVec 5) → (a b : Word) → (usd1 usd2 : BitVec 5) → (ceh cel : Word) → CeResult

end Sys2Proof
end

