-- ==== Sys2Proof/Machine/Launch.lean ====
section
/-! DEFINITION. The launch that State.reset stands for: the spec's defaults of the parameters (00_scope.md R10, 93_implementation_defined.md section 2), and, where the spec gives a parameter no default, a value that the log names. Every statement about the machine holds for any parameters. -/

namespace Sys2Proof.Machine

/-- `ResetPC` (R741), which the spec leaves open. DESIGN CHOICE (log 2). -/
def resetPc : Word := 0x00001000

/-- `ResetEXCPBase` (R741), which the spec leaves open. DESIGN CHOICE (log 2). -/
def resetExcpBase : Word := 0

/-- `PrevValue` (R50), which the spec leaves open. DESIGN CHOICE (log 2). -/
def prevValue : Word := 0

/-- The cause codes that R682 lists as a possible default. PRESUMED (log 8). -/
def defaultExcCodes : ExcCodes where
  interrupt := 0
  nmi := 1
  adelInst := 2
  busErrInst := 5
  ccu := 8
  ri := 9
  adelData := 11
  ades := 12
  cee := 16
  cpe := 17
  busErrData := 18

/-- A place for every field of the control registers; the spec gives none (R41). DESIGN CHOICE (log 6): the fields in the order in which R42, R43, R44 and R51 list them, from bit 0 up, IM in the upper half of ECR. -/
def defaultLayout : CrLayout where
  psr := { umc := 0, ums := 1, iec := 2, ies := 3, cra := 4, cu1 := 5, cu2 := 6, cu3 := 7 }
  current := { t := 0, n := 1, z := 2, c := 3, v := 4 }
  saved := { t := 5, n := 6, z := 7, c := 8, v := 9 }
  excCode := 0
  im := 16
  dm := 0
  dbp := 1
  brkSt := 2

/-- The parameters after reset: big endian (D1), memory that answers everywhere (D5), no coprocessor (D14), no `ceinst` function (D15), no probe (D12), the link of `jl!` at pc + 2 (D34), fractional products doubled (D25); and, PRESUMED, the vector at offset 0x200 of R693 (log 9) and a CNZ branch that decrements CNT when taken (log 12); Exc_code writable is a DESIGN CHOICE (log 15). -/
def defaultParams : Params where
  littleEndian := false
  memMap := []
  excCodes := defaultExcCodes
  vectors := []
  defaultVector := .fromBase 0x0200
  layout := defaultLayout
  iceEnable := false
  sjProbeEn := false
  hasCop1 := false
  hasCop2 := false
  hasCop3 := false
  ceImplemented := 0
  cnzSideEffect := .decIfTaken
  jl16LinkFour := false
  fractionalShift := true
  excCodeWritable := true

end Sys2Proof.Machine
end

