-- ==== Sys2Proof/Machine/State.lean ====
section
/-! DEFINITION. The state of the machine (10_state.md): every piece of state the spec names, as plain data; the reasons for which a step can stop; and the state after reset (70_reset_and_hazards.md R741). -/

namespace Sys2Proof.Machine

/-- cr0 PSR: the fields that R42 names, and the other bits of the register (R41). DESIGN CHOICE (log 31): no CU bit for coprocessor number 0, of which R42 does not say whether it exists; such a bit is part of the remainder and has no effect. Nor is there a further field or a read-only bit, which R42 leaves unstated. -/
structure Psr where
  /-- Current mode: true is User, false is Kernel. -/
  umc : Bool
  /-- Saved copy of UMc. -/
  ums : Bool
  /-- Current interrupt enable. -/
  iec : Bool
  /-- Saved copy of IEc. -/
  ies : Bool
  /-- User mode may execute the control instructions. -/
  cra : Bool
  /-- Coprocessor 1 is usable. -/
  cu1 : Bool
  /-- Coprocessor 2 is usable. -/
  cu2 : Bool
  /-- Coprocessor 3 is usable. -/
  cu3 : Bool
  /-- The bits that no named field takes (R41). -/
  rest : Word
deriving DecidableEq, Repr

/-- cr2 ECR: cause code and interrupt mask (R44), and the other bits. -/
structure Ecr where
  excCode : BitVec 5
  /-- Bit l is the mask of interrupt line l, 1 for enabled (R705). -/
  im : BitVec 16
  /-- The bits that no named field takes (R41). -/
  rest : Word
deriving DecidableEq, Repr

/-- cr29 DREG (R51), and its other bits. -/
structure Dreg where
  /-- In Debug Mode. -/
  dm : Bool
  /-- A software debug breakpoint was taken. -/
  dbp : Bool
  /-- Set by `sdbbp!` only. -/
  brkSt : Bool
  /-- The bits that no named field takes (R41). -/
  rest : Word
deriving DecidableEq, Repr

/-- The interrupt inputs of one step (R705): the set of pending external lines, NMI, the debug interrupt. -/
structure Inputs where
  ext : BitVec 16
  nmi : Bool
  dbg : Bool
deriving DecidableEq, Repr

/-- The state of the machine. -/
structure State where
  /-- The launch parameters, constant during a run (R766). -/
  cfg : Params
  /-- r0..r31 (R20). -/
  gpr : Vector Word 32
  /-- The program counter (R27). -/
  pc : Word
  /-- Nc, Zc, Cc, Vc, Tc of cr1 (R31, R43). -/
  flags : Flags
  /-- Ns, Zs, Cs, Vs, Ts of cr1 (R31, R43). -/
  savedFlags : Flags
  /-- The bits of cr1 that no named field takes (R41). -/
  condRest : Word
  /-- CEH (R36). -/
  ceh : Word
  /-- CEL (R36). -/
  cel : Word
  /-- sr0, the counter CNT (R37). -/
  cnt : Word
  /-- sr1, the load combine register (R37). -/
  lcr : Word
  /-- sr2, the store combine register (R37). -/
  scr : Word
  /-- cr0 (R42). -/
  psr : Psr
  /-- cr2 (R44). -/
  ecr : Ecr
  /-- cr3, EXCPvec, whose upper half is EXCPBase[31:16] (R45). -/
  excpVec : Word
  /-- cr4, the core control register (R46). -/
  ccr : Word
  /-- cr5, the exception program counter (R47). -/
  epc : Word
  /-- cr6, the exception memory address (R48). -/
  ema : Word
  /-- cr15 (R49). -/
  limpfn : Word
  /-- cr16 (R49). -/
  ldmpfn : Word
  /-- cr18, the processor revision (R50). -/
  prev : Word
  /-- cr29 (R51). -/
  dreg : Dreg
  /-- cr30, the debug exception program counter (R52). -/
  depc : Word
  /-- cr31, the debug save register (R52). -/
  dsave : Word
  /-- The register files of coprocessor 1 (R38). -/
  cop1 : CopFile
  /-- The register files of coprocessor 2 (R38). -/
  cop2 : CopFile
  /-- The register files of coprocessor 3 (R38). -/
  cop3 : CopFile
  /-- The sleeping state of R706. -/
  sleeping : Bool
  /-- The interrupt inputs of the steps to come, one element a step; after the last one nothing is asserted (R705; log 21). -/
  inputs : List Inputs
  /-- The memory bytes that are not 0, by strictly rising address (R80; log 3). -/
  mem : List Host.Cell
  /-- The MODEL's own field: how many free values have been drawn (log 10). -/
  free : Nat
deriving DecidableEq, Repr

/-- The machine stops with a fault. -/
inductive Fault where
  /-- Raised by the fetch of two half-words whose P bits differ, a PCE pair, which the spec does not define: "a model refuses (faults) on a PCE pair" (R125). Safe: hardware goes on. -/
  | pcePair
deriving DecidableEq, Repr

/-- The model gives no meaning. -/
inductive Refusal where
  /-- An instruction without a meaning in this model. Safe. No arm of exec answers with it. -/
  | notModelled (mnemonic : String)
  /-- Answered by lcb, lcw, lce, scb, scw and sce when the byte order is little endian: "With LittleEndian = 1 the model refuses to execute" them (R337). Safe: hardware goes on. -/
  | littleEndianCombine
deriving DecidableEq, Repr

/-- A register file in which every register holds 0. -/
def zeroFile : Vector Word 32 := Vector.replicate 32 0

/-- The machine right after reset (R741): Kernel mode, interrupts disabled and masked, not in Debug Mode, PC, cr3 and cr18 at their launch parameters, no interrupt input. Every register for which the spec gives no value holds 0: DESIGN CHOICE (log 1). -/
def State.reset : State where
  cfg := defaultParams
  gpr := zeroFile
  pc := resetPc
  flags := { n := false, z := false, c := false, v := false, t := false }
  savedFlags := { n := false, z := false, c := false, v := false, t := false }
  condRest := 0
  ceh := 0
  cel := 0
  cnt := 0
  lcr := 0
  scr := 0
  psr :=
    { umc := false, ums := false, iec := false, ies := false, cra := false
      cu1 := false, cu2 := false, cu3 := false, rest := 0 }
  ecr := { excCode := 0, im := 0, rest := 0 }
  excpVec := resetExcpBase
  ccr := 0
  epc := 0
  ema := 0
  limpfn := 0
  ldmpfn := 0
  prev := prevValue
  dreg := { dm := false, dbp := false, brkSt := false, rest := 0 }
  depc := 0
  dsave := 0
  cop1 := { data := zeroFile, ctrl := zeroFile }
  cop2 := { data := zeroFile, ctrl := zeroFile }
  cop3 := { data := zeroFile, ctrl := zeroFile }
  sleeping := false
  inputs := []
  mem := []
  free := 0

end Sys2Proof.Machine
end

