-- ==== Sys2Proof/Machine/Ops.lean ====
section
/-! DEFINITION. The operations that the meanings share: registers, memory, MemMap, control registers, coprocessor registers, and taking and leaving an exception (60_exceptions.md R691, R700, R715). -/

namespace Sys2Proof.Machine

/-- What a meaning answers. -/
abbrev Result := Host.Outcome State Fault Refusal

/-! ## Registers -/

/-- The register that a 5-bit field names in a file of 32. -/
def fileGet (f : Vector Word 32) (r : BitVec 5) : Word := f[r.toNat]

/-- The file with that register written. -/
def fileSet (f : Vector Word 32) (r : BitVec 5) (v : Word) : Vector Word 32 := f.set r.toNat v r.isLt

/-- `r[i]` (R13). No register is hard-wired (R21). -/
def State.reg (s : State) (r : Reg) : Word := fileGet s.gpr r

/-- `r[i] <- v` (R13). -/
def State.setReg (s : State) (r : Reg) (v : Word) : State := { s with gpr := fileSet s.gpr r v }

/-- The register r[i] becomes UNDEFINED: a free value (R13; log 10). -/
def State.drawReg (s : State) (r : Reg) : State :=
  { s with gpr := fileSet s.gpr r (Config.freeWord s.free), free := s.free + 1 }

/-- The next instruction is `len` bytes further (R27, R29). -/
def State.advance (s : State) (len : Word) : State := { s with pc := s.pc + len }

/-- The link register (R23). -/
def linkRegister : Reg := 3

/-- The base pointer of the `*p!` loads and stores (R23). -/
def basePointer : Reg := 2

/-- A register of the half g0: r0..r15 (R22). -/
def g0 (r : G0) : Reg := 0#1 ++ r

/-- A register of the half g1: r16..r31 (R22). -/
def g1 (r : G0) : Reg := 1#1 ++ r

/-- The register `{H, rD}` of `push!` and `pop!` (R466). -/
def gh (h : Bool) (r : G0) : Reg := BitVec.ofBool h ++ r

/-- The base register of `push!` and `pop!`: r0..r7 (R466). -/
def gBase (b : BitVec 3) : Reg := 0#2 ++ b

/-- The accumulator `{CEH, CEL}` (R541). -/
def State.acc (s : State) : BitVec 64 := s.ceh ++ s.cel

/-- `acc64 = v` (R541). -/
def State.setAcc (s : State) (v : BitVec 64) : State :=
  { s with ceh := v.extractLsb' 32 32, cel := v.extractLsb' 0 32 }

/-- CEH and CEL become UNDEFINED: two free values (log 10). -/
def State.drawAcc (s : State) : State :=
  { s with ceh := Config.freeWord s.free, cel := Config.freeWord (s.free + 1), free := s.free + 2 }

/-- `sr[n]` for the three special registers (R37). -/
def State.special (s : State) (n : BitVec 5) : Option Word :=
  match n.toNat with
  | 0 => some s.cnt
  | 1 => some s.lcr
  | 2 => some s.scr
  | _ => none

/-- `sr[n] <- v` for the three special registers (R37). -/
def State.setSpecial (s : State) (n : BitVec 5) (v : Word) : Option State :=
  match n.toNat with
  | 0 => some { s with cnt := v }
  | 1 => some { s with lcr := v }
  | 2 => some { s with scr := v }
  | _ => none

/-! ## Memory (20_memory.md) -/

/-- What a byte that the list does not name reads as. DESIGN CHOICE (log 3). -/
def unlistedByte : Byte := 0

/-- The byte at an address. -/
def readByte : List Host.Cell → Nat → Byte
  | [], _ => unlistedByte
  | (k, v) :: rest, a => if a = k then v else if a < k then unlistedByte else readByte rest a

/-- The memory with one byte written, kept in its canonical form. -/
def writeByte : List Host.Cell → Nat → Byte → List Host.Cell
  | [], a, b => if b = unlistedByte then [] else [(a, b)]
  | (k, v) :: rest, a, b =>
    if a < k then if b = unlistedByte then (k, v) :: rest else (a, b) :: (k, v) :: rest
    else if a = k then if b = unlistedByte then rest else (a, b) :: rest
    else (k, v) :: writeByte rest a b

/-- The list is in the canonical form from address `lo` on: addresses strictly rising and below 2^32, no entry equal to what an unlisted address reads as. -/
def Memory.wfFrom (lo : Nat) : List Host.Cell → Bool
  | [] => true
  | (a, b) :: rest =>
    decide (lo ≤ a) && decide (a < 2 ^ 32) && decide (b ≠ unlistedByte) && Memory.wfFrom (a + 1) rest

/-- The canonical form of memory. -/
def Memory.wf (m : List Host.Cell) : Bool := Memory.wfFrom 0 m

/-- The memory with bytes written at `a`, `a + 1`, ..., addresses modulo 2^32 (R89). -/
def writeBytes (m : List Host.Cell) (a : Word) : List Byte → List Host.Cell
  | [] => m
  | b :: bs => writeBytes (writeByte m a.toNat b) (a + 1) bs

/-- The byte at an address (R80). -/
def State.byte (s : State) (a : Word) : Byte := readByte s.mem a.toNat

/-- `MemRead(a, 2)` in the machine's byte order (R81). -/
def State.half (s : State) (a : Word) : Half :=
  halfOfBytes s.cfg.littleEndian (s.byte a) (s.byte (a + 1))

/-- The word of four bytes, the first at the lowest address (R81). -/
def wordOfBytes (littleEndian : Bool) (b0 b1 b2 b3 : Byte) : Word :=
  if littleEndian then b3 ++ b2 ++ b1 ++ b0 else b0 ++ b1 ++ b2 ++ b3

/-- The four bytes of a word, most significant first. -/
def wordBytes (v : Word) : List Byte :=
  [v.extractLsb' 24 8, v.extractLsb' 16 8, v.extractLsb' 8 8, v.extractLsb' 0 8]

/-- The four bytes of a word, the first for the lowest address (R81). -/
def bytesOfWord (littleEndian : Bool) (v : Word) : List Byte :=
  if littleEndian then (wordBytes v).reverse else wordBytes v

/-- `MemRead(a, 4)` in the machine's byte order (R81). -/
def State.word (s : State) (a : Word) : Word :=
  wordOfBytes s.cfg.littleEndian (s.byte a) (s.byte (a + 1)) (s.byte (a + 2)) (s.byte (a + 3))

/-- Bytes stored from an address on. -/
def State.write (s : State) (a : Word) (bs : List Byte) : State := { s with mem := writeBytes s.mem a bs }

/-- The sizes of a data access (R84). -/
inductive Width where
  | byte | half | word
deriving DecidableEq, Repr

/-- How many bytes an access moves (R84). -/
def Width.bytes : Width → Nat
  | .byte => 1
  | .half => 2
  | .word => 4

/-- The alignment tests of R84. -/
def misaligned (w : Width) (ea : Word) : Bool :=
  match w with
  | .byte => false
  | .half => ea.extractLsb' 0 1 != 0
  | .word => ea.extractLsb' 0 2 != 0

/-- The loads, by how they extend the value (R88). -/
inductive LoadKind where
  | w | h | hu | b | bu
deriving DecidableEq, Repr

/-- The size of a load. -/
def LoadKind.width : LoadKind → Width
  | .w => .word
  | .h | .hu => .half
  | .b | .bu => .byte

/-- The value a load gives its register (R88). -/
def State.loaded (s : State) (k : LoadKind) (ea : Word) : Word :=
  match k with
  | .w => s.word ea
  | .h => (s.half ea).signExtend 32
  | .hu => (s.half ea).setWidth 32
  | .b => (s.byte ea).signExtend 32
  | .bu => (s.byte ea).setWidth 32

/-- The bytes a store writes at its address: the low part of the register, in the machine's byte order (R81, R88). -/
def storedBytes (littleEndian : Bool) (w : Width) (v : Word) : List Byte :=
  match w with
  | .word => bytesOfWord littleEndian v
  | .half => bytesOfHalf littleEndian (v.extractLsb' 0 16)
  | .byte => [v.extractLsb' 0 8]

/-- `MemWrite(ea, n, v)` (R13). -/
def State.stored (s : State) (w : Width) (ea : Word) (v : Word) : State :=
  s.write ea (storedBytes s.cfg.littleEndian w v)

/-! ## Modes and MemMap -/

/-- Debug Mode is DM = 1, else UMc tells User from Kernel (R710). -/
def State.mode (s : State) : Mode :=
  if s.dreg.dm then .debug else if s.psr.umc then .user else .kernel

/-- The rule holds for this access. -/
def mapRuleFits (r : MapRule) (a : Word) (k : AccessKind) (m : Mode) : Bool :=
  decide (r.lo.toNat ≤ a.toNat) && decide (a.toNat ≤ r.hi.toNat) && decide (r.kind = k) && decide (r.mode = m)

/-- The first rule that fits answers, else ok (R106). -/
def memMapVerdict : List MapRule → Word → AccessKind → Mode → Verdict
  | [], _, _, _ => .ok
  | r :: rest, a, k, m => if mapRuleFits r a k m then r.verdict else memMapVerdict rest a k m

/-- `MemMap(addr, kind, mode)` (R90). -/
def State.memMap (s : State) (a : Word) (k : AccessKind) : Verdict := memMapVerdict s.cfg.memMap a k s.mode

/-- The exception of an address error (R90). -/
def addressErrorOf : AccessKind → Exc
  | .fetch => .adelInst
  | .load => .adelData
  | .store => .ades

/-- The exception of a bus error (R90). -/
def busErrorOf : AccessKind → Exc
  | .fetch => .busErrInst
  | .load | .store => .busErrData

/-- The exception that MemMap asks for (R90, R300). -/
def State.mapFault (s : State) (k : AccessKind) (a : Word) : Option Exc :=
  match s.memMap a k with
  | .ok => none
  | .addressError => some (addressErrorOf k)
  | .busError => some (busErrorOf k)

/-- The exception of a data access: alignment first, then MemMap (R90, R300). -/
def State.dataFault (s : State) (k : AccessKind) (w : Width) (ea : Word) : Option Exc :=
  if misaligned w ea then some (addressErrorOf k) else s.mapFault k ea

/-! ## Taking an exception and returning from one -/

/-- `ExcCode(name)` (R682): 7 for Syscall and 10 for Trap, the others parameters. -/
def excCode (p : Params) : Exc → BitVec 5
  | .interrupt _ => p.excCodes.interrupt
  | .nmi => p.excCodes.nmi
  | .adelInst => p.excCodes.adelInst
  | .busErrInst => p.excCodes.busErrInst
  | .ri => p.excCodes.ri
  | .ccu => p.excCodes.ccu
  | .cpe => p.excCodes.cpe
  | .cee => p.excCodes.cee
  | .syscall => 7
  | .trap => 10
  | .adelData => p.excCodes.adelData
  | .ades => p.excCodes.ades
  | .busErrData => p.excCodes.busErrData

/-- The eleven cause codes that a launch chooses, with the two fixed ones. -/
def excCodesOf (c : ExcCodes) : List (BitVec 5) :=
  [c.interrupt, c.nmi, c.adelInst, c.busErrInst, c.ccu, c.ri, c.adelData, c.ades, c.cee, c.cpe, c.busErrData, 7, 10]

/-- `ExcCode` is injective (R682): no code repeats, and only Syscall has 7 and only Trap 10. The interrupt lines share one code (log 8). -/
def excCodesInjective (c : ExcCodes) : Bool := decide (excCodesOf c).Nodup

/-- The rule that places the handler of an exception: its first entry in the table, else the default. -/
def vectorRule (dflt : VectorRule) : List (Exc × VectorRule) → Exc → VectorRule
  | [], _ => dflt
  | (y, r) :: rest, x => if x = y then r else vectorRule dflt rest x

/-- `ExcVector(X)` (R693), a function of the exception and of cr3. -/
def State.excVector (s : State) (x : Exc) : Word :=
  match vectorRule s.cfg.defaultVector s.cfg.vectors x with
  | .fixed addr => addr
  | .fromBase offset => s.excpVec.extractLsb' 16 16 ++ offset

/-- Exception entry (R691, R692): the mode, the interrupt enable and the flags are saved, Exc_code and EPC are written, EMA is written where the exception records an address, and control goes to the handler in Kernel mode with interrupts disabled. -/
def State.enter (s : State) (x : Exc) (epc : Word) (addr : Option Word) : State :=
  { s with
    psr := { s.psr with ums := s.psr.umc, ies := s.psr.iec, umc := false, iec := false }
    savedFlags := s.flags
    ecr := { s.ecr with excCode := excCode s.cfg x }
    epc := epc
    ema := addr.getD s.ema
    pc := s.excVector x }

/-- `raise X` by the instruction at pc, without an address (R690). -/
def State.raise (s : State) (x : Exc) : State := s.enter x s.pc none

/-- `raise X` by the instruction at pc, with the address that it records (R690, R692). -/
def State.raiseAt (s : State) (x : Exc) (addr : Word) : State := s.enter x s.pc (some addr)

/-- Return from exception (R700). -/
def State.returnFromException (s : State) : State :=
  { s with
    psr := { s.psr with umc := s.psr.ums, iec := s.psr.ies }
    flags := s.savedFlags
    pc := s.epc }

/-- The address of the debug handler (R408, R715). -/
def State.debugVector (s : State) : Word :=
  if s.cfg.iceEnable && s.cfg.sjProbeEn then 0xFF000000 else s.excpVec.extractLsb' 16 16 ++ 0x01FC#16

/-- Debug entry (R715): a software breakpoint sets DBp, `sdbbp!` also BrkSt, a debug interrupt neither. -/
def State.debugEnter (s : State) (dbp brkSt : Bool) : State :=
  { s with
    depc := s.pc
    dreg := { s.dreg with dm := true, dbp := s.dreg.dbp || dbp, brkSt := s.dreg.brkSt || brkSt }
    pc := s.debugVector }

/-- Return from a debug exception (R407, R716). -/
def State.returnFromDebug (s : State) : State := { s with pc := s.depc, dreg := { s.dreg with dm := false } }

/-- `Privileged()` (R712). -/
def State.privileged (s : State) : Bool := !s.psr.umc || s.dreg.dm || s.psr.cra

/-- A control instruction: its effect where it is privileged, else CCU (R712). -/
def State.controlled (s : State) (effect : State) : State := if s.privileged then effect else s.raise .ccu

/-- A data access: the exception it raises, else the effect (R300, R690). -/
def State.accessed (s : State) (k : AccessKind) (w : Width) (ea : Word) (effect : State) : State :=
  match s.dataFault k w ea with
  | some x => s.raiseAt x ea
  | none => effect

/-! ## Control registers (10_state.md section 5) -/

/-- A field bit at its place in a register's image. -/
def bitAt (b : Bool) (p : Fin 32) : Word := if b then 1#32 <<< p.val else 0

/-- The places that a list of single-bit fields takes. -/
def fieldMask : List (Fin 32) → Word
  | [] => 0
  | p :: ps => 1#32 <<< p.val ||| fieldMask ps

/-- The places of the fields of PSR. -/
def psrPlaces (l : PsrLayout) : List (Fin 32) := [l.umc, l.ums, l.iec, l.ies, l.cra, l.cu1, l.cu2, l.cu3]

/-- The places of five flags. -/
def flagPlaces (l : FlagLayout) : List (Fin 32) := [l.n, l.z, l.c, l.v, l.t]

/-- The image of five flags. -/
def flagsImage (l : FlagLayout) (f : Flags) : Word :=
  bitAt f.n l.n ||| bitAt f.z l.z ||| bitAt f.c l.c ||| bitAt f.v l.v ||| bitAt f.t l.t

/-- The five flags of an image. -/
def flagsOfImage (l : FlagLayout) (w : Word) : Flags where
  n := w.getLsbD l.n
  z := w.getLsbD l.z
  c := w.getLsbD l.c
  v := w.getLsbD l.v
  t := w.getLsbD l.t

/-- The 32-bit image of PSR under CrLayout (R41, R42). -/
def psrImage (l : PsrLayout) (p : Psr) : Word :=
  p.rest ||| bitAt p.umc l.umc ||| bitAt p.ums l.ums ||| bitAt p.iec l.iec ||| bitAt p.ies l.ies |||
    bitAt p.cra l.cra ||| bitAt p.cu1 l.cu1 ||| bitAt p.cu2 l.cu2 ||| bitAt p.cu3 l.cu3

/-- The record of PSR that an image stands for. -/
def psrOfImage (l : PsrLayout) (w : Word) : Psr where
  umc := w.getLsbD l.umc
  ums := w.getLsbD l.ums
  iec := w.getLsbD l.iec
  ies := w.getLsbD l.ies
  cra := w.getLsbD l.cra
  cu1 := w.getLsbD l.cu1
  cu2 := w.getLsbD l.cu2
  cu3 := w.getLsbD l.cu3
  rest := w &&& ~~~fieldMask (psrPlaces l)

/-- The image of the Condition register (R43). -/
def State.conditionImage (s : State) : Word :=
  s.condRest ||| flagsImage s.cfg.layout.current s.flags ||| flagsImage s.cfg.layout.saved s.savedFlags

/-- The places of Exc_code and IM in ECR. -/
def ecrMask (l : CrLayout) : Word := 0x1F#32 <<< l.excCode.val ||| 0xFFFF#32 <<< l.im.val

/-- The image of ECR (R44). -/
def ecrImage (l : CrLayout) (e : Ecr) : Word :=
  e.rest ||| e.excCode.setWidth 32 <<< l.excCode.val ||| e.im.setWidth 32 <<< l.im.val

/-- The record of ECR that an image stands for. -/
def ecrOfImage (l : CrLayout) (w : Word) : Ecr where
  excCode := w.extractLsb' l.excCode 5
  im := w.extractLsb' l.im 16
  rest := w &&& ~~~ecrMask l

/-- The image of DREG (R51). -/
def dregImage (l : CrLayout) (d : Dreg) : Word :=
  d.rest ||| bitAt d.dm l.dm ||| bitAt d.dbp l.dbp ||| bitAt d.brkSt l.brkSt

/-- The record of DREG that an image stands for. -/
def dregOfImage (l : CrLayout) (w : Word) : Dreg where
  dm := w.getLsbD l.dm
  dbp := w.getLsbD l.dbp
  brkSt := w.getLsbD l.brkSt
  rest := w &&& ~~~fieldMask [l.dm, l.dbp, l.brkSt]

/-- No two fields of one control register share a place, so that CrLayout is the bijection of R41. -/
def layoutDisjoint (l : CrLayout) : Bool :=
  decide (psrPlaces l.psr).Nodup && decide (flagPlaces l.current ++ flagPlaces l.saved).Nodup &&
    (decide (l.excCode.val + 5 ≤ l.im.val) || decide (l.im.val + 16 ≤ l.excCode.val)) &&
    decide [l.dm, l.dbp, l.brkSt].Nodup

/-- What the spec asks of the launch parameters that a launch chooses: ExcCode is injective (R682) and CrLayout is a bijection (R41). A launch that breaks it is outside the spec; the step is defined for it all the same. -/
def launchLegal (p : Params) : Bool := excCodesInjective p.excCodes && layoutDisjoint p.layout

/-- The remainder of each packed control register holds no bit at a place of a named field (R41). -/
def State.remaindersClear (s : State) : Bool :=
  s.psr.rest &&& fieldMask (psrPlaces s.cfg.layout.psr) == 0 &&
    s.condRest &&& (fieldMask (flagPlaces s.cfg.layout.current) ||| fieldMask (flagPlaces s.cfg.layout.saved)) == 0 &&
    s.ecr.rest &&& ecrMask s.cfg.layout == 0 &&
    s.dreg.rest &&& fieldMask [s.cfg.layout.dm, s.cfg.layout.dbp, s.cfg.layout.brkSt] == 0

/-- `cr[n]` for the named control registers (R40); none for the others (R53). -/
def State.controlReg (s : State) (n : BitVec 5) : Option Word :=
  match n.toNat with
  | 0 => some (psrImage s.cfg.layout.psr s.psr)
  | 1 => some s.conditionImage
  | 2 => some (ecrImage s.cfg.layout s.ecr)
  | 3 => some s.excpVec
  | 4 => some s.ccr
  | 5 => some s.epc
  | 6 => some s.ema
  | 15 => some s.limpfn
  | 16 => some s.ldmpfn
  | 18 => some s.prev
  | 29 => some (dregImage s.cfg.layout s.dreg)
  | 30 => some s.depc
  | 31 => some s.dsave
  | _ => none

/-- The Condition register written: all ten flags (R43, R383). -/
def State.setCondition (s : State) (w : Word) : State :=
  { s with
    flags := flagsOfImage s.cfg.layout.current w
    savedFlags := flagsOfImage s.cfg.layout.saved w
    condRest := w &&& ~~~(fieldMask (flagPlaces s.cfg.layout.current) ||| fieldMask (flagPlaces s.cfg.layout.saved)) }

/-- ECR written: IM, the other bits, and Exc_code where the launch says that it is writable (R383; log 15). -/
def State.setEcr (s : State) (w : Word) : State :=
  let e := ecrOfImage s.cfg.layout w
  { s with ecr := if s.cfg.excCodeWritable then e else { e with excCode := s.ecr.excCode } }

/-- `cr[n] <- w` (R383): cr18 and the unnamed registers ignore the write (R50, R53). -/
def State.setControlReg (s : State) (n : BitVec 5) (w : Word) : State :=
  match n.toNat with
  | 0 => { s with psr := psrOfImage s.cfg.layout.psr w }
  | 1 => s.setCondition w
  | 2 => s.setEcr w
  | 3 => { s with excpVec := w }
  | 4 => { s with ccr := w }
  | 5 => { s with epc := w }
  | 6 => { s with ema := w }
  | 15 => { s with limpfn := w }
  | 16 => { s with ldmpfn := w }
  | 29 => { s with dreg := dregOfImage s.cfg.layout w }
  | 30 => { s with depc := w }
  | 31 => { s with dsave := w }
  | _ => s

/-! ## Coprocessors (44_system_cop_ce_32.md section 6) -/

/-- The register files of coprocessor n; n = 0 names none and is never reached. -/
def State.cop (s : State) (n : BitVec 2) : CopFile :=
  match n.toNat with
  | 1 => s.cop1
  | 2 => s.cop2
  | _ => s.cop3

/-- The register files of coprocessor n written. -/
def State.setCop (s : State) (n : BitVec 2) (f : CopFile) : State :=
  match n.toNat with
  | 1 => { s with cop1 := f }
  | 2 => { s with cop2 := f }
  | _ => { s with cop3 := f }

/-- `CopUsable(n)` (R360): the CU bit of PSR. -/
def State.copUsable (s : State) (n : BitVec 2) : Bool :=
  match n.toNat with
  | 0 => false
  | 1 => s.psr.cu1
  | 2 => s.psr.cu2
  | _ => s.psr.cu3

/-- `HasCoprocessor(n)` (R385). -/
def State.copPresent (s : State) (n : BitVec 2) : Bool :=
  match n.toNat with
  | 0 => false
  | 1 => s.cfg.hasCop1
  | 2 => s.cfg.hasCop2
  | _ => s.cfg.hasCop3

/-- The checks of every coprocessor instruction (R385): CP# = 00 is reserved, then the CU bit, then the response. -/
def State.coprocessed (s : State) (n : BitVec 2) (effect : State) : State :=
  if n = 0 then s.raise .ri
  else if !s.copUsable n then s.raise .ccu
  else if !s.copPresent n then s.raise .ri
  else effect

end Sys2Proof.Machine
end

