-- ==== Sys2Proof/Machine/Operands.lean ====
section
/-! DEFINITION. Operand forms and the values that the instructions compute from their operands: immediates (30_encoding.md R129), addresses and targets, the condition test (10_state.md R33), shift and rotate results, products, clamping (47_enhanced_mac.md R541). -/

namespace Sys2Proof.Machine

/-! ## Immediates (R129) -/

/-- `sext_32` of an immediate field. -/
def sext {w : Nat} (imm : BitVec w) : Word := imm.signExtend 32

/-- `zext_32` of an immediate field. -/
def zext {w : Nat} (imm : BitVec w) : Word := imm.setWidth 32

/-- The immediate of `addis`, `andis`, `oris`, `ldis`: `{Imm16, 16'b0}`. -/
def upper (imm : BitVec 16) : Word := imm ++ 0#16

/-- The addend of `addei!` and `subei!`: `2^Exp4` (R427). -/
def powerOfTwo (exp : BitVec 4) : Word := 1#32 <<< exp.toNat

/-- The offset of `ldc` and `stc`: `sext_32({Imm10, 2'b00})` (R390). -/
def copOffset (imm : BitVec 10) : Word := (imm ++ 0#2).signExtend 32

/-! ## Addresses and targets -/

/-- The offset of a `*p!` instruction of the given size: `Imm5` times the size (R470, R471, R472). -/
def baseOffset (w : Width) (imm : BitVec 5) : Word :=
  match w with
  | .byte => imm.setWidth 32
  | .half => (imm ++ 0#1).setWidth 32
  | .word => (imm ++ 0#2).setWidth 32

/-- The target of a branch whose displacement counts half-words (R274, R455). -/
def branchTarget {w : Nat} (pc : Word) (disp : BitVec w) : Word := pc + (disp ++ 0#1).signExtend 32

/-- The target of `j` and `jl`: `{pc[31:25], Disp24, 1'b0}` (R278). -/
def jumpTarget (pc : Word) (disp : BitVec 24) : Word := pc.extractLsb' 25 7 ++ disp ++ 0#1

/-- The target of `j!` and `jl!`: `{pc[31:12], Disp11, 1'b0}` (R457). -/
def jumpTarget16 (pc : Word) (disp : BitVec 11) : Word := pc.extractLsb' 12 20 ++ disp ++ 0#1

/-- The address of the word that holds address `a` (R330). -/
def wordAddress (a : Word) : Word := a.extractLsb' 2 30 ++ 0#2

/-- The number `byte` of the combine instructions in big-endian order: the misalignment of the address (R330). -/
def misalignment (a : Word) : Nat := (a.extractLsb' 0 2).toNat

/-! ## The condition test -/

/-- `cond(code)` over the flags N, Z, C, V and the counter (R33). -/
def condHolds (f : Flags) (cnt : Word) : Cond → Bool
  | .cs => f.c
  | .cc => !f.c
  | .gtu => f.c && !f.z
  | .leu => !f.c || f.z
  | .eq => f.z
  | .ne => !f.z
  | .gt => !f.z && f.n == f.v
  | .le => f.z || f.n != f.v
  | .ge => f.n == f.v
  | .lt => f.n != f.v
  | .mi => f.n
  | .pl => !f.n
  | .vs => f.v
  | .vc => !f.v
  | .cnz => cnt != 0
  | .al => true

/-- The condition holds in the state. -/
def State.holds (s : State) (c : Cond) : Bool := condHolds s.flags s.cnt c

/-- CNT after a branch with this condition: only code CNZ touches it, as `CnzSideEffect` says (R34). -/
def State.countAfter (s : State) (c : Cond) : Word :=
  if c = .cnz then
    match s.cfg.cnzSideEffect with
    | .none => s.cnt
    | .decIfTaken => if s.holds c then s.cnt - 1 else s.cnt
    | .decAlways => s.cnt - 1
  else s.cnt

/-- A conditional branch to `target`, or past the instruction's `len` bytes (R270, R274). -/
def State.branched (s : State) (c : Cond) (target len : Word) : State :=
  { s with cnt := s.countAfter c, pc := if s.holds c then target else s.pc + len }

/-- The link register written (R271). -/
def State.linked (s : State) (v : Word) : State := s.setReg linkRegister v

/-! ## Shifts and rotates (41_shift_rotate_extend_32.md) -/

/-- The amount of a shift by register: the low 5 bits. -/
def amount (v : Word) : BitVec 5 := v.extractLsb' 0 5

/-- `a << n` (R230). -/
def shiftLeft (a : Word) (n : BitVec 5) : Word := a <<< n.toNat

/-- `a >> n` logical (R232). -/
def shiftRight (a : Word) (n : BitVec 5) : Word := a >>> n.toNat

/-- `a >> n` arithmetic (R234). -/
def shiftRightArith (a : Word) (n : BitVec 5) : Word := a.sshiftRight n.toNat

/-- `a` rotated left (R238). -/
def rotateLeft (a : Word) (n : BitVec 5) : Word := a.rotateLeft n.toNat

/-- `a` rotated right (R240). -/
def rotateRight (a : Word) (n : BitVec 5) : Word := a.rotateRight n.toNat

/-- The bit that leaves at the left: `a[32 - n]`, none for n = 0 (R230, R236, R238). -/
def leftCarry (a : Word) (n : BitVec 5) : Option Bool :=
  if n = 0 then none else some (a.getLsbD (32 - n.toNat))

/-- The bit that leaves at the right: `a[n - 1]`, none for n = 0 (R232, R236, R240). -/
def rightCarry (a : Word) (n : BitVec 5) : Option Bool :=
  if n = 0 then none else some (a.getLsbD (n.toNat - 1))

/-- The 33-bit chain `{C, a}` of the carry rotates (R242). -/
def carryChain (c : Bool) (a : Word) : BitVec 33 := BitVec.ofBool c ++ a

/-- The chain rotated left (R244). -/
def chainLeft (c : Bool) (a : Word) (n : BitVec 5) : BitVec 33 := (carryChain c a).rotateLeft n.toNat

/-- The chain rotated right (R242). -/
def chainRight (c : Bool) (a : Word) (n : BitVec 5) : BitVec 33 := (carryChain c a).rotateRight n.toNat

/-- `{LCR[31-8*byte : 0], M[31 : 32-8*byte]}`; a shift by 32 leaves 0, so that byte = 0 gives LCR (R332). -/
def combineLoad (byte : Nat) (lcr m : Word) : Word := lcr <<< (8 * byte) ||| m >>> (32 - 8 * byte)

/-- `{SCR[31 : 32-8*byte], v[31 : 8*byte]}`; a shift by 32 leaves 0, so that byte = 0 gives v (R335). -/
def combineStore (byte : Nat) (scr v : Word) : Word :=
  scr >>> (32 - 8 * byte) <<< (32 - 8 * byte) ||| v >>> (8 * byte)

/-- SCR after `scb` and `scw`: the source rotated right by `8 * byte` (R334, R335). -/
def combineRest (byte : Nat) (v : Word) : Word := v.rotateRight (8 * byte)

/-! ## Products, clamping and bit counts (47_enhanced_mac.md) -/

/-- The exact signed product of two registers (R361). -/
def signedProduct (a b : Word) : Int := a.toInt * b.toInt

/-- The exact unsigned product of two registers (R362). -/
def unsignedProduct (a b : Word) : Int := (a.toNat : Int) * (b.toNat : Int)

/-- `lo16s` (R541). -/
def lo16s (x : Word) : Int := (x.extractLsb' 0 16).toInt

/-- `hi16s` (R541). -/
def hi16s (x : Word) : Int := (x.extractLsb' 16 16).toInt

/-- The product of the lower halves. -/
def lowProduct (a b : Word) : Int := lo16s a * lo16s b

/-- The product of the upper halves. -/
def highProduct (a b : Word) : Int := hi16s a * hi16s b

/-- `fr(p)`: doubled, or as it is when `FractionalShift` is 0 (R541, R542). -/
def State.fr (s : State) (p : Int) : Int := if s.cfg.fractionalShift then 2 * p else p

/-- `wrap32` (R541). -/
def wrap32 (v : Int) : Word := BitVec.ofInt 32 v

/-- `sat32` (R541, R543). -/
def sat32 (v : Int) : Word :=
  if 2 ^ 31 - 1 < v then 0x7FFFFFFF else if v < -2 ^ 31 then 0x80000000 else wrap32 v

/-- `acc64 = wrap64(v)` (R541). -/
def State.accumulated (s : State) (v : Int) : State := s.setAcc (BitVec.ofInt 64 v)

/-- The number of 0 bits at positions below `i`, from `i - 1` downward, before the first 1. -/
def leadingZeros (x : Word) : Nat → Nat
  | 0 => 0
  | i + 1 => if x.getLsbD i then 0 else leadingZeros x i + 1

/-- The result of `clz` (R579). -/
def countLeadingZeros (x : Word) : Word := BitVec.ofNat 32 (leadingZeros x 32)

/-- The shift amount of `bitrev`: 0 where the field names r0 (R596). -/
def reverseAmount (rb : Reg) (v : Word) : BitVec 5 := if rb = 0 then 0 else amount v

/-- The result of `bitrev` (R596). -/
def reversed (a : Word) (n : BitVec 5) : Word := a.reverse >>> n.toNat

/-! ## Loads and stores with their forms (43_load_store_32.md R300, R325) -/

/-- A load without a base update. -/
def State.load (s : State) (k : LoadKind) (rd : Reg) (ea len : Word) : State :=
  s.accessed .load k.width ea ((s.setReg rd (s.loaded k ea)).advance len)

/-- The registers after a load that also updates its base: one register for both is UNDEFINED (R326). -/
def State.setLoadedBase (s : State) (rd ra : Reg) (v base : Word) : State :=
  if rd = ra then s.drawReg rd else (s.setReg rd v).setReg ra base

/-- A load that updates its base register (R325). -/
def State.loadUpdating (s : State) (k : LoadKind) (rd ra : Reg) (ea base len : Word) : State :=
  s.accessed .load k.width ea ((s.setLoadedBase rd ra (s.loaded k ea) base).advance len)

/-- A store without a base update. -/
def State.store (s : State) (w : Width) (rd : Reg) (ea len : Word) : State :=
  s.accessed .store w ea ((s.stored w ea (s.reg rd)).advance len)

/-- A store that updates its base register (R325, R326). -/
def State.storeUpdating (s : State) (w : Width) (rd ra : Reg) (ea base len : Word) : State :=
  s.accessed .store w ea (((s.stored w ea (s.reg rd)).setReg ra base).advance len)

/-- A combine instruction: its effect in big-endian order, a refusal in little-endian order (R337). -/
def State.combined (s : State) (effect : State) : Result :=
  if s.cfg.littleEndian then .refused .littleEndianCombine else .next effect

end Sys2Proof.Machine
end

