-- ==== Sys2Proof/Machine/Flags.lean ====
section
/-! DEFINITION. The flag computations (40_arith_logic_32.md R180, 41_shift_rotate_extend_32.md R250, 45_16bit.md R421). -/

namespace Sys2Proof.Machine

/-! ## Results and the bits that they carry out (R180) -/

/-- The integer is in the range of a signed word. -/
def fitsSigned (v : Int) : Bool := decide (-2 ^ 31 ≤ v) && decide (v ≤ 2 ^ 31 - 1)

/-- `a + b + c` modulo 2^32 (R181, R182). -/
def sum (a b : Word) (c : Bool) : Word := a + b + (BitVec.ofBool c).setWidth 32

/-- `carry(a + b + c)`. -/
def carryOf (a b : Word) (c : Bool) : Bool := decide (2 ^ 32 ≤ a.toNat + b.toNat + c.toNat)

/-- `overflow(a + b + c)`. -/
def overflowOf (a b : Word) (c : Bool) : Bool := !fitsSigned (a.toInt + b.toInt + c.toInt)

/-- `a - b - (1 - c)` modulo 2^32; `c` is true for a subtraction without carry (R186, R187). -/
def difference (a b : Word) (c : Bool) : Word := a - b - (BitVec.ofBool (!c)).setWidth 32

/-- `~borrow(a - b - (1 - c))`. -/
def noBorrow (a b : Word) (c : Bool) : Bool := decide (b.toNat + (!c).toNat ≤ a.toNat)

/-- `overflow(a - b - (1 - c))`. -/
def subOverflow (a b : Word) (c : Bool) : Bool := !fitsSigned (a.toInt - b.toInt - (!c).toInt)

/-! ## What an instruction does to the flags -/

/-- What happens to one flag. -/
inductive FlagWrite where
  /-- Unchanged. -/
  | keep
  /-- Written. -/
  | set (b : Bool)
  /-- Becomes UNDEFINED: a free value (log 10). -/
  | undefined
deriving DecidableEq, Repr

/-- The flag after the write, from its value before it and the free value. -/
def FlagWrite.apply (old free : Bool) : FlagWrite → Bool
  | .keep => old
  | .set b => b
  | .undefined => free

/-- What an instruction does to the five flags; a flag that is not named is unchanged. -/
structure FlagUpdate where
  n : FlagWrite := .keep
  z : FlagWrite := .keep
  c : FlagWrite := .keep
  v : FlagWrite := .keep
  t : FlagWrite := .keep
deriving DecidableEq, Repr

/-- Some flag becomes UNDEFINED. -/
def FlagUpdate.draws (u : FlagUpdate) : Bool :=
  decide (u.n = .undefined ∨ u.z = .undefined ∨ u.c = .undefined ∨ u.v = .undefined ∨ u.t = .undefined)

/-- The flags after the update. -/
def FlagUpdate.flags (u : FlagUpdate) (old free : Flags) : Flags where
  n := u.n.apply old.n free.n
  z := u.z.apply old.z free.z
  c := u.c.apply old.c free.c
  v := u.v.apply old.v free.v
  t := u.t.apply old.t free.t

/-- The flags updated; a set of free flags is drawn where one becomes UNDEFINED (log 10). -/
def State.putFlags (s : State) (u : FlagUpdate) : State :=
  { s with
    flags := u.flags s.flags (Config.freeFlags s.free)
    free := if u.draws then s.free + 1 else s.free }

/-- The update where the CU bit is 1, none where it is 0 (R206). -/
def onCu (cu : Bool) (u : FlagUpdate) : FlagUpdate := if cu then u else {}

/-- A carry, UNDEFINED where there is none (R236). -/
def carryWrite : Option Bool → FlagWrite
  | some b => .set b
  | none => .undefined

/-- N and Z of a result (R190). -/
def nzOf (r : Word) : FlagUpdate := { n := .set r.msb, z := .set (r == 0) }

/-- N, Z, C, V of an addition (R181, R182). -/
def addFlags (a b : Word) (c : Bool) : FlagUpdate :=
  { nzOf (sum a b c) with c := .set (carryOf a b c), v := .set (overflowOf a b c) }

/-- N, Z, C, V of a subtraction (R186, R187). -/
def subFlags (a b : Word) (c : Bool) : FlagUpdate :=
  { nzOf (difference a b c) with c := .set (noBorrow a b c), v := .set (subOverflow a b c) }

/-- What a compare does to T: the new Z, the new N, or nothing (R200). -/
def tcsWrite (tcs : Tcs) (r : Word) : FlagWrite :=
  match tcs with
  | .teq => .set (r == 0)
  | .tmi => .set r.msb
  | .reserved | .plain => .keep

/-- N, Z, C, V and T of a compare (R200, R201). -/
def cmpFlags (tcs : Tcs) (a b : Word) : FlagUpdate :=
  { subFlags a b true with t := tcsWrite tcs (difference a b true) }

/-- N and Z of a bit test (R203). -/
def bitTestFlags (a : Word) (bn : BitVec 5) : FlagUpdate :=
  { n := .set a.msb, z := .set (!a.getLsbD bn.toNat) }

/-- N, Z, C of a shift (R250). -/
def shiftFlags (r : Word) (carry : Option Bool) : FlagUpdate := { nzOf r with c := carryWrite carry }

/-- The flags of a plain rotate: C, with N and Z UNDEFINED (R238, R250). -/
def rotateFlags (carry : Option Bool) : FlagUpdate :=
  { n := .undefined, z := .undefined, c := carryWrite carry }

/-- N and C of a carry rotate, from the rotated chain (R242, R250). -/
def chainFlags (y : BitVec 33) : FlagUpdate := { n := .set (y.getLsbD 31), c := .set (y.getLsbD 32) }

/-- N of an extend; Z becomes UNDEFINED (R246, R250). -/
def extendFlags (r : Word) : FlagUpdate := { n := .set r.msb, z := .undefined }

/-- N, Z, C, V become UNDEFINED (R421). -/
def undefNzcv : FlagUpdate := { n := .undefined, z := .undefined, c := .undefined, v := .undefined }

/-- N, Z become UNDEFINED (R421). -/
def undefNz : FlagUpdate := { n := .undefined, z := .undefined }

/-- N, Z, C become UNDEFINED (R421). -/
def undefNzc : FlagUpdate := { n := .undefined, z := .undefined, c := .undefined }

/-- An instruction that writes a register and the flags and goes on `len` bytes further. -/
def State.computed (s : State) (rd : Reg) (v : Word) (u : FlagUpdate) (len : Word) : State :=
  ((s.setReg rd v).putFlags u).advance len

/-- An instruction that writes only flags and goes on `len` bytes further. -/
def State.tested (s : State) (u : FlagUpdate) (len : Word) : State := (s.putFlags u).advance len

end Sys2Proof.Machine
end

