-- ==== Sys2Proof/Machine/Arith.lean ====
section
/-! DEFINITION. Addition, subtraction, compares, logical instructions and immediate loads, 32 bits wide (40_arith_logic_32.md). None of them touches memory or raises. -/

namespace Sys2Proof.Machine

/-- `add` (R181). -/
def execAdd (rd ra rb : Reg) (cu : Bool) (s : State) : Result :=
  .next (s.computed rd (sum (s.reg ra) (s.reg rb) false) (onCu cu (addFlags (s.reg ra) (s.reg rb) false)) 4)

/-- `addc` (R182). -/
def execAddc (rd ra rb : Reg) (cu : Bool) (s : State) : Result :=
  .next (s.computed rd (sum (s.reg ra) (s.reg rb) s.flags.c) (onCu cu (addFlags (s.reg ra) (s.reg rb) s.flags.c)) 4)

/-- `addi` (R183). -/
def execAddi (rd : Reg) (imm : BitVec 16) (cu : Bool) (s : State) : Result :=
  .next (s.computed rd (sum (s.reg rd) (sext imm) false) (onCu cu (addFlags (s.reg rd) (sext imm) false)) 4)

/-- `addis` (R184). -/
def execAddis (rd : Reg) (imm : BitVec 16) (cu : Bool) (s : State) : Result :=
  .next (s.computed rd (sum (s.reg rd) (upper imm) false) (onCu cu (addFlags (s.reg rd) (upper imm) false)) 4)

/-- `addri` (R185). -/
def execAddri (rd ra : Reg) (imm : BitVec 14) (cu : Bool) (s : State) : Result :=
  .next (s.computed rd (sum (s.reg ra) (sext imm) false) (onCu cu (addFlags (s.reg ra) (sext imm) false)) 4)

/-- `sub` (R186). -/
def execSub (rd ra rb : Reg) (cu : Bool) (s : State) : Result :=
  .next (s.computed rd (difference (s.reg ra) (s.reg rb) true) (onCu cu (subFlags (s.reg ra) (s.reg rb) true)) 4)

/-- `subc` (R187). -/
def execSubc (rd ra rb : Reg) (cu : Bool) (s : State) : Result :=
  .next (s.computed rd (difference (s.reg ra) (s.reg rb) s.flags.c) (onCu cu (subFlags (s.reg ra) (s.reg rb) s.flags.c)) 4)

/-- `neg` (R188). -/
def execNeg (rd rb : Reg) (cu : Bool) (s : State) : Result :=
  .next (s.computed rd (difference 0 (s.reg rb) true) (onCu cu (subFlags 0 (s.reg rb) true)) 4)

/-- `cmp{TCS}.c` (R200). -/
def execCmp (tcs : Tcs) (ra rb : Reg) (s : State) : Result :=
  .next (s.tested (cmpFlags tcs (s.reg ra) (s.reg rb)) 4)

/-- `cmpz{TCS}.c` (R201). -/
def execCmpz (tcs : Tcs) (ra : Reg) (s : State) : Result :=
  .next (s.tested (cmpFlags tcs (s.reg ra) 0) 4)

/-- `cmpi.c` (R202). -/
def execCmpi (rd : Reg) (imm : BitVec 16) (s : State) : Result :=
  .next (s.tested (subFlags (s.reg rd) (sext imm) true) 4)

/-- `and` (R190). -/
def execAnd (rd ra rb : Reg) (cu : Bool) (s : State) : Result :=
  .next (s.computed rd (s.reg ra &&& s.reg rb) (onCu cu (nzOf (s.reg ra &&& s.reg rb))) 4)

/-- `or` (R194). -/
def execOr (rd ra rb : Reg) (cu : Bool) (s : State) : Result :=
  .next (s.computed rd (s.reg ra ||| s.reg rb) (onCu cu (nzOf (s.reg ra ||| s.reg rb))) 4)

/-- `xor` (R198). -/
def execXor (rd ra rb : Reg) (cu : Bool) (s : State) : Result :=
  .next (s.computed rd (s.reg ra ^^^ s.reg rb) (onCu cu (nzOf (s.reg ra ^^^ s.reg rb))) 4)

/-- `not` (R199). -/
def execNot (rd ra : Reg) (cu : Bool) (s : State) : Result :=
  .next (s.computed rd (~~~s.reg ra) (onCu cu (nzOf (~~~s.reg ra))) 4)

/-- `andi` (R191). -/
def execAndi (rd : Reg) (imm : BitVec 16) (cu : Bool) (s : State) : Result :=
  .next (s.computed rd (s.reg rd &&& zext imm) (onCu cu (nzOf (s.reg rd &&& zext imm))) 4)

/-- `ori` (R195). -/
def execOri (rd : Reg) (imm : BitVec 16) (cu : Bool) (s : State) : Result :=
  .next (s.computed rd (s.reg rd ||| zext imm) (onCu cu (nzOf (s.reg rd ||| zext imm))) 4)

/-- `andis` (R192). -/
def execAndis (rd : Reg) (imm : BitVec 16) (cu : Bool) (s : State) : Result :=
  .next (s.computed rd (s.reg rd &&& upper imm) (onCu cu (nzOf (s.reg rd &&& upper imm))) 4)

/-- `oris` (R196). -/
def execOris (rd : Reg) (imm : BitVec 16) (cu : Bool) (s : State) : Result :=
  .next (s.computed rd (s.reg rd ||| upper imm) (onCu cu (nzOf (s.reg rd ||| upper imm))) 4)

/-- `andri` (R193). -/
def execAndri (rd ra : Reg) (imm : BitVec 14) (cu : Bool) (s : State) : Result :=
  .next (s.computed rd (s.reg ra &&& zext imm) (onCu cu (nzOf (s.reg ra &&& zext imm))) 4)

/-- `orri` (R197). -/
def execOrri (rd ra : Reg) (imm : BitVec 14) (cu : Bool) (s : State) : Result :=
  .next (s.computed rd (s.reg ra ||| zext imm) (onCu cu (nzOf (s.reg ra ||| zext imm))) 4)

/-- `bittst.c` (R203). -/
def execBittst (ra : Reg) (bn : BitVec 5) (s : State) : Result :=
  .next (s.tested (bitTestFlags (s.reg ra) bn) 4)

/-- `ldi` (R204). -/
def execLdi (rd : Reg) (imm : BitVec 16) (s : State) : Result :=
  .next ((s.setReg rd (sext imm)).advance 4)

/-- `ldis` (R205). -/
def execLdis (rd : Reg) (imm : BitVec 16) (s : State) : Result :=
  .next ((s.setReg rd (upper imm)).advance 4)

end Sys2Proof.Machine
end

