-- ==== Sys2Proof/Machine/Branch.lean ====
section
/-! DEFINITION. Branches, jumps, the conditional move and the T flag, 32 bits wide (42_branch_jump_32.md). -/

namespace Sys2Proof.Machine

/-- `b{cond}` (R274). -/
def execBCond (c : Cond) (disp : BitVec 19) (s : State) : Result :=
  .next (s.branched c (branchTarget s.pc disp) 4)

/-- `b{cond}l` (R275): the link is written whether or not the branch is taken (R271). -/
def execBCondL (c : Cond) (disp : BitVec 19) (s : State) : Result :=
  .next ((s.branched c (branchTarget s.pc disp) 4).linked (s.pc + 4))

/-- `br{cond}` (R276). -/
def execBrCond (c : Cond) (ra : Reg) (s : State) : Result :=
  .next (s.branched c (s.reg ra) 4)

/-- `br{cond}l` (R277): the target is read before the link is written (R272). -/
def execBrCondL (c : Cond) (ra : Reg) (s : State) : Result :=
  .next ((s.branched c (s.reg ra) 4).linked (s.pc + 4))

/-- `j` (R278). -/
def execJ (disp : BitVec 24) (s : State) : Result :=
  .next { s with pc := jumpTarget s.pc disp }

/-- `jl` (R278). -/
def execJl (disp : BitVec 24) (s : State) : Result :=
  .next ({ s with pc := jumpTarget s.pc disp }.linked (s.pc + 4))

/-- `mv{cond}` (R286): `mvcnz` is not supported and does nothing. -/
def execMvCond (c : Cond) (rd ra : Reg) (s : State) : Result :=
  .next ((if c ≠ .cnz ∧ s.holds c then s.setReg rd (s.reg ra) else s).advance 4)

/-- `t{cond}` (R288). -/
def execTCond (c : Cond) (s : State) : Result :=
  .next (s.tested { t := .set (s.holds c) } 4)

end Sys2Proof.Machine
end

