-- ==== Sys2Proof/Machine/Ce.lean ====
section
/-! DEFINITION. Multiplication, division, the moves to and from the custom-engine and special registers, `ceinst` (44_system_cop_ce_32.md sections 2, 3, 4 and 7). None of them touches a flag. -/

namespace Sys2Proof.Machine

/-- `mul` (R361). -/
def execMul (ra rb : Reg) (s : State) : Result :=
  .next ((s.accumulated (signedProduct (s.reg ra) (s.reg rb))).advance 4)

/-- `mul.f` (R545). -/
def execMulF (ra rb : Reg) (s : State) : Result :=
  .next ((s.accumulated (s.fr (signedProduct (s.reg ra) (s.reg rb)))).advance 4)

/-- `mulu` (R362). -/
def execMulu (ra rb : Reg) (s : State) : Result :=
  .next ((s.accumulated (unsignedProduct (s.reg ra) (s.reg rb))).advance 4)

/-- Division by zero: CEH and CEL become UNDEFINED and CeE is raised (R363, R690). -/
def State.dividedByZero (s : State) : State := s.drawAcc.raise .cee

/-- `div` (R363): the quotient is truncated toward zero and the remainder has the sign of the dividend; for -2^31 / -1 CEH and CEL become UNDEFINED (R365). -/
def execDiv (ra rb : Reg) (s : State) : Result :=
  let a := s.reg ra
  let b := s.reg rb
  .next
    (if b = 0 then s.dividedByZero
    else if a = 0x80000000 ∧ b = 0xFFFFFFFF then s.drawAcc.advance 4
    else { s with cel := wrap32 (a.toInt.tdiv b.toInt), ceh := wrap32 (a.toInt.tmod b.toInt) }.advance 4)

/-- `divu` (R364). -/
def execDivu (ra rb : Reg) (s : State) : Result :=
  let a := s.reg ra
  let b := s.reg rb
  .next
    (if b = 0 then s.dividedByZero
    else { s with cel := BitVec.ofNat 32 (a.toNat / b.toNat), ceh := BitVec.ofNat 32 (a.toNat % b.toNat) }.advance 4)

/-- `mfcel` (R371). -/
def execMfcel (rd : Reg) (s : State) : Result :=
  .next ((s.setReg rd s.cel).advance 4)

/-- `mfceh` (R373). -/
def execMfceh (rd : Reg) (s : State) : Result :=
  .next ((s.setReg rd s.ceh).advance 4)

/-- `mfcehl` (R374): one register for both is UNDEFINED. -/
def execMfcehl (rd ra : Reg) (s : State) : Result :=
  .next ((if rd = ra then s.drawReg rd else (s.setReg rd s.ceh).setReg ra s.cel).advance 4)

/-- `mfcex` with HI = LO = 0: the register becomes UNDEFINED (R372). -/
def execMfcex0 (rd : Reg) (s : State) : Result :=
  .next ((s.drawReg rd).advance 4)

/-- `mtcel` (R376). -/
def execMtcel (rd : Reg) (s : State) : Result :=
  .next ({ s with cel := s.reg rd }.advance 4)

/-- `mtceh` (R377). -/
def execMtceh (rd : Reg) (s : State) : Result :=
  .next ({ s with ceh := s.reg rd }.advance 4)

/-- `mtcehl` (R378). -/
def execMtcehl (rd ra : Reg) (s : State) : Result :=
  .next ({ s with ceh := s.reg rd, cel := s.reg ra }.advance 4)

/-- `mtcex` with HI = LO = 0: CEH and CEL become UNDEFINED (R375). The register field has no effect. -/
def execMtcex0 (_rd : Reg) (s : State) : Result :=
  .next (s.drawAcc.advance 4)

/-- `mfsr` (R380): an Srn above 2 is a reserved encoding. -/
def execMfsr (rd : Reg) (srn : BitVec 5) (s : State) : Result :=
  match s.special srn with
  | some v => .next ((s.setReg rd v).advance 4)
  | none => .next (s.raise .ri)

/-- `mtsr` (R381): an Srn above 2 is a reserved encoding. -/
def execMtsr (ra : Reg) (srn : BitVec 5) (s : State) : Result :=
  match s.setSpecial srn (s.reg ra) with
  | some t => .next (t.advance 4)
  | none => .next (s.raise .ri)

/-- The general register that a USD field names takes the value that the custom engine gives it, if any (R395). -/
def State.setUser (s : State) (usd : BitVec 5) (v : Option Word) : State :=
  match v with
  | some x => s.setReg usd x
  | none => s

/-- What a function of the custom engine writes: CEH, CEL, and the registers named by USD1, then USD2 (R395; log 25, log 44). -/
def State.applyCe (s : State) (usd1 usd2 : BitVec 5) (r : CeResult) : State :=
  ({ s with ceh := r.ceh, cel := r.cel }.setUser usd1 r.usd1).setUser usd2 r.usd2

/-- `ceinst` (R395): RI for a function that the custom engine does not implement. -/
def execCeinst (func5 : BitVec 5) (ra rb : Reg) (usd1 usd2 : BitVec 5) (s : State) : Result :=
  let r := Config.ceInstStep func5 (s.reg ra) (s.reg rb) usd1 usd2 s.ceh s.cel
  .next
    (if !s.cfg.ceImplemented.getLsbD func5.toNat then s.raise .ri
    else if r.raises then (s.applyCe usd1 usd2 r).raise .cee
    else (s.applyCe usd1 usd2 r).advance 4)

end Sys2Proof.Machine
end

