-- ==== Sys2Proof/Machine/Cop.lean ====
section
/-! DEFINITION. The coprocessor instructions (44_system_cop_ce_32.md section 6). -/

namespace Sys2Proof.Machine

/-- `mtc{n}` (R386, R385). -/
def execMtc (n : BitVec 2) (rd : Reg) (cra : BitVec 5) (s : State) : Result :=
  .next (s.coprocessed n 
    ((s.setCop n { s.cop n with data := fileSet (s.cop n).data cra (s.reg rd) }).advance 4))

/-- `mfc{n}` (R387, R385). -/
def execMfc (n : BitVec 2) (rd : Reg) (cra : BitVec 5) (s : State) : Result :=
  .next (s.coprocessed n ((s.setReg rd (fileGet (s.cop n).data cra)).advance 4))

/-- `ldc{n}` (R390, R385). -/
def execLdc (n : BitVec 2) (rd : Reg) (cra : BitVec 5) (imm : BitVec 10) (s : State) : Result :=
  .next (s.coprocessed n 
    (let ea := s.reg rd + copOffset imm
    s.accessed .load .word ea
      ((s.setCop n { s.cop n with data := fileSet (s.cop n).data cra (s.loaded .w ea) }).advance 4)))

/-- `stc{n}` (R391, R385). -/
def execStc (n : BitVec 2) (rd : Reg) (cra : BitVec 5) (imm : BitVec 10) (s : State) : Result :=
  .next (s.coprocessed n 
    (let ea := s.reg rd + copOffset imm
    s.accessed .store .word ea ((s.stored .word ea (fileGet (s.cop n).data cra)).advance 4)))

/-- `cop{n}` (R392, R385). -/
def execCop (n : BitVec 2) (code : BitVec 20) (s : State) : Result :=
  .next (s.coprocessed n 
    (let r := Config.copStep n code (s.cop n)
    if r.2 then (s.setCop n r.1).raise .cpe else (s.setCop n r.1).advance 4))

/-- `mtcc{n}` (R388, R385). -/
def execMtcc (n : BitVec 2) (rd : Reg) (cra : BitVec 5) (s : State) : Result :=
  .next (s.coprocessed n 
    ((s.setCop n { s.cop n with ctrl := fileSet (s.cop n).ctrl cra (s.reg rd) }).advance 4))

/-- `mfcc{n}` (R389, R385). -/
def execMfcc (n : BitVec 2) (rd : Reg) (cra : BitVec 5) (s : State) : Result :=
  .next (s.coprocessed n ((s.setReg rd (fileGet (s.cop n).ctrl cra)).advance 4))

end Sys2Proof.Machine
end

