-- ==== Sys2Proof/Machine/LoadStore.lean ====
section
/-! DEFINITION. Loads, stores, load-combine and store-combine, `cache` and `pflush`, 32 bits wide (43_load_store_32.md). None of them touches a flag. -/

namespace Sys2Proof.Machine

/-- `lw` (R301). -/
def execLw (rd ra : Reg) (imm : BitVec 15) (s : State) : Result :=
  .next (s.load .w rd (s.reg ra + sext imm) 4)

/-- `lw`, post-index (R302). -/
def execLwPost (rd ra : Reg) (imm : BitVec 12) (s : State) : Result :=
  .next (s.loadUpdating .w rd ra (s.reg ra) (s.reg ra + sext imm) 4)

/-- `lw`, pre-index (R303). -/
def execLwPre (rd ra : Reg) (imm : BitVec 12) (s : State) : Result :=
  .next (s.loadUpdating .w rd ra (s.reg ra + sext imm) (s.reg ra + sext imm) 4)

/-- `lh` (R304). -/
def execLh (rd ra : Reg) (imm : BitVec 15) (s : State) : Result :=
  .next (s.load .h rd (s.reg ra + sext imm) 4)

/-- `lh`, post-index (R305). -/
def execLhPost (rd ra : Reg) (imm : BitVec 12) (s : State) : Result :=
  .next (s.loadUpdating .h rd ra (s.reg ra) (s.reg ra + sext imm) 4)

/-- `lh`, pre-index (R306). -/
def execLhPre (rd ra : Reg) (imm : BitVec 12) (s : State) : Result :=
  .next (s.loadUpdating .h rd ra (s.reg ra + sext imm) (s.reg ra + sext imm) 4)

/-- `lhu` (R307). -/
def execLhu (rd ra : Reg) (imm : BitVec 15) (s : State) : Result :=
  .next (s.load .hu rd (s.reg ra + sext imm) 4)

/-- `lhu`, post-index (R308). -/
def execLhuPost (rd ra : Reg) (imm : BitVec 12) (s : State) : Result :=
  .next (s.loadUpdating .hu rd ra (s.reg ra) (s.reg ra + sext imm) 4)

/-- `lhu`, pre-index (R309). -/
def execLhuPre (rd ra : Reg) (imm : BitVec 12) (s : State) : Result :=
  .next (s.loadUpdating .hu rd ra (s.reg ra + sext imm) (s.reg ra + sext imm) 4)

/-- `lb` (R310). -/
def execLb (rd ra : Reg) (imm : BitVec 15) (s : State) : Result :=
  .next (s.load .b rd (s.reg ra + sext imm) 4)

/-- `lb`, post-index (R311). -/
def execLbPost (rd ra : Reg) (imm : BitVec 12) (s : State) : Result :=
  .next (s.loadUpdating .b rd ra (s.reg ra) (s.reg ra + sext imm) 4)

/-- `lb`, pre-index (R312). -/
def execLbPre (rd ra : Reg) (imm : BitVec 12) (s : State) : Result :=
  .next (s.loadUpdating .b rd ra (s.reg ra + sext imm) (s.reg ra + sext imm) 4)

/-- `lbu` (R313). -/
def execLbu (rd ra : Reg) (imm : BitVec 15) (s : State) : Result :=
  .next (s.load .bu rd (s.reg ra + sext imm) 4)

/-- `lbu`, post-index (R314). -/
def execLbuPost (rd ra : Reg) (imm : BitVec 12) (s : State) : Result :=
  .next (s.loadUpdating .bu rd ra (s.reg ra) (s.reg ra + sext imm) 4)

/-- `lbu`, pre-index (R315). -/
def execLbuPre (rd ra : Reg) (imm : BitVec 12) (s : State) : Result :=
  .next (s.loadUpdating .bu rd ra (s.reg ra + sext imm) (s.reg ra + sext imm) 4)

/-- `sw` (R316). -/
def execSw (rd ra : Reg) (imm : BitVec 15) (s : State) : Result :=
  .next (s.store .word rd (s.reg ra + sext imm) 4)

/-- `sw`, post-index (R317). -/
def execSwPost (rd ra : Reg) (imm : BitVec 12) (s : State) : Result :=
  .next (s.storeUpdating .word rd ra (s.reg ra) (s.reg ra + sext imm) 4)

/-- `sw`, pre-index (R318). -/
def execSwPre (rd ra : Reg) (imm : BitVec 12) (s : State) : Result :=
  .next (s.storeUpdating .word rd ra (s.reg ra + sext imm) (s.reg ra + sext imm) 4)

/-- `sh` (R319). -/
def execSh (rd ra : Reg) (imm : BitVec 15) (s : State) : Result :=
  .next (s.store .half rd (s.reg ra + sext imm) 4)

/-- `sh`, post-index (R320). -/
def execShPost (rd ra : Reg) (imm : BitVec 12) (s : State) : Result :=
  .next (s.storeUpdating .half rd ra (s.reg ra) (s.reg ra + sext imm) 4)

/-- `sh`, pre-index (R321). -/
def execShPre (rd ra : Reg) (imm : BitVec 12) (s : State) : Result :=
  .next (s.storeUpdating .half rd ra (s.reg ra + sext imm) (s.reg ra + sext imm) 4)

/-- `sb` (R322). -/
def execSb (rd ra : Reg) (imm : BitVec 15) (s : State) : Result :=
  .next (s.store .byte rd (s.reg ra + sext imm) 4)

/-- `sb`, post-index (R323). -/
def execSbPost (rd ra : Reg) (imm : BitVec 12) (s : State) : Result :=
  .next (s.storeUpdating .byte rd ra (s.reg ra) (s.reg ra + sext imm) 4)

/-- `sb`, pre-index (R324). -/
def execSbPre (rd ra : Reg) (imm : BitVec 12) (s : State) : Result :=
  .next (s.storeUpdating .byte rd ra (s.reg ra + sext imm) (s.reg ra + sext imm) 4)

/-! ## Load-combine and store-combine, in big-endian order (R330, R337) -/

/-- `lcb` (R331). -/
def execLcb (ra : Reg) (s : State) : Result :=
  let wa := wordAddress (s.reg ra)
  s.combined (s.accessed .load .word wa (({ s with lcr := s.word wa }.setReg ra (s.reg ra + 4)).advance 4))

/-- What `lcw` does, and `lce` at an address that is not aligned (R332, R333). -/
def State.loadCombined (s : State) (rd ra : Reg) : State :=
  let wa := wordAddress (s.reg ra)
  let m := s.word wa
  let v := combineLoad (misalignment (s.reg ra)) s.lcr m
  s.accessed .load .word wa (({ s with lcr := m }.setLoadedBase rd ra v (s.reg ra + 4)).advance 4)

/-- `lcw` (R332). -/
def execLcw (rd ra : Reg) (s : State) : Result :=
  s.combined (s.loadCombined rd ra)

/-- `lce` (R333): at an aligned address LCR is the result and memory is not read. -/
def execLce (rd ra : Reg) (s : State) : Result :=
  s.combined
    (if misalignment (s.reg ra) = 0 then (s.setLoadedBase rd ra s.lcr (s.reg ra + 4)).advance 4
    else s.loadCombined rd ra)

/-- `scb` (R334): no alignment test; the bytes end at the word boundary. -/
def execScb (rd ra : Reg) (s : State) : Result :=
  let a := s.reg ra
  let v := s.reg rd
  let byte := misalignment a
  s.combined (s.accessed .store .byte a
    (({ s.write a ((wordBytes v).take (4 - byte)) with scr := combineRest byte v }.setReg ra (a + 4)).advance 4))

/-- `scw` (R335). -/
def execScw (rd ra : Reg) (s : State) : Result :=
  let a := s.reg ra
  let v := s.reg rd
  let byte := misalignment a
  s.combined (s.accessed .store .word (wordAddress a)
    (({ s.stored .word (wordAddress a) (combineStore byte s.scr v) with scr := combineRest byte v }.setReg
      ra (a + 4)).advance 4))

/-- `sce` (R336): at an aligned address memory is not touched. -/
def execSce (ra : Reg) (s : State) : Result :=
  let a := s.reg ra
  let byte := misalignment a
  s.combined
    (if byte = 0 then (s.setReg ra (a + 4)).advance 4
    else s.accessed .store .byte (wordAddress a)
      (((s.write (wordAddress a) ((wordBytes s.scr).take byte)).setReg ra (a + 4)).advance 4))

/-! ## cache and pflush -/

/-- The operations of Table 2-2 (R344). -/
def cacheOpDefined (op : BitVec 5) : Bool :=
  [0x00#5, 0x01#5, 0x02#5, 0x03#5, 0x04#5, 0x08#5, 0x09#5, 0x0A#5, 0x0B#5, 0x0C#5, 0x0D#5, 0x0E#5,
    0x10#5, 0x11#5, 0x18#5, 0x1A#5, 0x1B#5, 0x1D#5, 0x1E#5, 0x1F#5].contains op

/-- The operations that read memory through the effective address (R345). -/
def cacheOpReads (op : BitVec 5) : Bool :=
  [0x00#5, 0x01#5, 0x03#5, 0x08#5, 0x09#5, 0x0B#5].contains op

/-- `cache` (R343, R345): no cache is modelled (R112; log 23). -/
def execCache (op : BitVec 5) (ra : Reg) (imm : BitVec 15) (s : State) : Result :=
  let ea := s.reg ra + sext imm
  .next
    (if !cacheOpDefined op then s.raise .ri
    else if cacheOpReads op && s.memMap ea .load == .busError then s.raiseAt .busErrData ea
    else s.advance 4)

/-- `pflush` (R346). -/
def execPflush (s : State) : Result :=
  .next (s.advance 4)

end Sys2Proof.Machine
end

