-- ==== Sys2Proof/Machine/Mac.lean ====
section
/-! DEFINITION. The enhanced multiply-accumulate instructions, 32 bits wide (47_enhanced_mac.md sections 2 to 5). None of them touches a flag or raises. -/

namespace Sys2Proof.Machine

/-! ## The 64-bit accumulator (section 2) -/

/-- `mad` (R546). -/
def execMad (ra rb : Reg) (s : State) : Result :=
  .next ((s.accumulated (s.acc.toInt + signedProduct (s.reg ra) (s.reg rb))).advance 4)

/-- `madu` (R547). -/
def execMadu (ra rb : Reg) (s : State) : Result :=
  .next ((s.accumulated ((s.acc.toNat : Int) + unsignedProduct (s.reg ra) (s.reg rb))).advance 4)

/-- `mad.f` (R548). -/
def execMadF (ra rb : Reg) (s : State) : Result :=
  .next ((s.accumulated (s.acc.toInt + s.fr (signedProduct (s.reg ra) (s.reg rb)))).advance 4)

/-- `msb` (R549). -/
def execMsb (ra rb : Reg) (s : State) : Result :=
  .next ((s.accumulated (s.acc.toInt - signedProduct (s.reg ra) (s.reg rb))).advance 4)

/-- `msbu` (R550). -/
def execMsbu (ra rb : Reg) (s : State) : Result :=
  .next ((s.accumulated ((s.acc.toNat : Int) - unsignedProduct (s.reg ra) (s.reg rb))).advance 4)

/-- `msb.f` (R551). -/
def execMsbF (ra rb : Reg) (s : State) : Result :=
  .next ((s.accumulated (s.acc.toInt - s.fr (signedProduct (s.reg ra) (s.reg rb)))).advance 4)

/-! ## The lower halves and CEL (section 3) -/

/-- `mazl` (R555). -/
def execMazl (ra rb : Reg) (s : State) : Result :=
  .next ({ s with cel := wrap32 (lowProduct (s.reg ra) (s.reg rb)) }.advance 4)

/-- `mazl.f` (R556). -/
def execMazlF (ra rb : Reg) (s : State) : Result :=
  .next ({ s with cel := wrap32 (s.fr (lowProduct (s.reg ra) (s.reg rb))) }.advance 4)

/-- `madl` (R557). -/
def execMadl (ra rb : Reg) (s : State) : Result :=
  .next ({ s with cel := wrap32 (s.cel.toInt + lowProduct (s.reg ra) (s.reg rb)) }.advance 4)

/-- `madl.fs` (R558). -/
def execMadlFs (ra rb : Reg) (s : State) : Result :=
  .next ({ s with cel := sat32 (s.cel.toInt + s.fr (lowProduct (s.reg ra) (s.reg rb))) }.advance 4)

/-- `mszl` (R559). -/
def execMszl (ra rb : Reg) (s : State) : Result :=
  .next ({ s with cel := wrap32 (-lowProduct (s.reg ra) (s.reg rb)) }.advance 4)

/-- `mszl.f` (R560). -/
def execMszlF (ra rb : Reg) (s : State) : Result :=
  .next ({ s with cel := wrap32 (-s.fr (lowProduct (s.reg ra) (s.reg rb))) }.advance 4)

/-- `msbl` (R561). -/
def execMsbl (ra rb : Reg) (s : State) : Result :=
  .next ({ s with cel := wrap32 (s.cel.toInt - lowProduct (s.reg ra) (s.reg rb)) }.advance 4)

/-- `msbl.fs` (R562). -/
def execMsblFs (ra rb : Reg) (s : State) : Result :=
  .next ({ s with cel := sat32 (s.cel.toInt - s.fr (lowProduct (s.reg ra) (s.reg rb))) }.advance 4)

/-! ## The upper halves and CEH (section 4) -/

/-- `mazh` (R565). -/
def execMazh (ra rb : Reg) (s : State) : Result :=
  .next ({ s with ceh := wrap32 (highProduct (s.reg ra) (s.reg rb)) }.advance 4)

/-- `mazh.f` (R566). -/
def execMazhF (ra rb : Reg) (s : State) : Result :=
  .next ({ s with ceh := wrap32 (s.fr (highProduct (s.reg ra) (s.reg rb))) }.advance 4)

/-- `madh` (R567). -/
def execMadh (ra rb : Reg) (s : State) : Result :=
  .next ({ s with ceh := wrap32 (s.ceh.toInt + highProduct (s.reg ra) (s.reg rb)) }.advance 4)

/-- `madh.fs` (R568). -/
def execMadhFs (ra rb : Reg) (s : State) : Result :=
  .next ({ s with ceh := sat32 (s.ceh.toInt + s.fr (highProduct (s.reg ra) (s.reg rb))) }.advance 4)

/-- `mszh` (R569). -/
def execMszh (ra rb : Reg) (s : State) : Result :=
  .next ({ s with ceh := wrap32 (-highProduct (s.reg ra) (s.reg rb)) }.advance 4)

/-- `mszh.f` (R570). -/
def execMszhF (ra rb : Reg) (s : State) : Result :=
  .next ({ s with ceh := wrap32 (-s.fr (highProduct (s.reg ra) (s.reg rb))) }.advance 4)

/-- `msbh` (R571). -/
def execMsbh (ra rb : Reg) (s : State) : Result :=
  .next ({ s with ceh := wrap32 (s.ceh.toInt - highProduct (s.reg ra) (s.reg rb)) }.advance 4)

/-- `msbh.fs` (R572). -/
def execMsbhFs (ra rb : Reg) (s : State) : Result :=
  .next ({ s with ceh := sat32 (s.ceh.toInt - s.fr (highProduct (s.reg ra) (s.reg rb))) }.advance 4)

/-! ## Saturating and bit-manipulation instructions (section 5) -/

/-- `min` (R573). -/
def execMin (rd ra rb : Reg) (s : State) : Result :=
  .next ((s.setReg rd (if (s.reg ra).toInt ≤ (s.reg rb).toInt then s.reg ra else s.reg rb)).advance 4)

/-- `max` (R574). -/
def execMax (rd ra rb : Reg) (s : State) : Result :=
  .next ((s.setReg rd (if (s.reg rb).toInt ≤ (s.reg ra).toInt then s.reg ra else s.reg rb)).advance 4)

/-- `add.s` (R575). -/
def execAddS (rd ra rb : Reg) (s : State) : Result :=
  .next ((s.setReg rd (sat32 ((s.reg ra).toInt + (s.reg rb).toInt))).advance 4)

/-- `sub.s` (R576). -/
def execSubS (rd ra rb : Reg) (s : State) : Result :=
  .next ((s.setReg rd (sat32 ((s.reg ra).toInt - (s.reg rb).toInt))).advance 4)

/-- `abs` (R577). -/
def execAbs (rd ra : Reg) (s : State) : Result :=
  .next ((s.setReg rd (if 0 ≤ (s.reg ra).toInt then s.reg ra else 0 - s.reg ra)).advance 4)

/-- `abs.s` (R578). -/
def execAbsS (rd ra : Reg) (s : State) : Result :=
  .next ((s.setReg rd (if 0 ≤ (s.reg ra).toInt then s.reg ra else sat32 (0 - (s.reg ra).toInt))).advance 4)

/-- `bitrev` (R596). -/
def execBitrev (rd ra rb : Reg) (s : State) : Result :=
  .next ((s.setReg rd (reversed (s.reg ra) (reverseAmount rb (s.reg rb)))).advance 4)

/-- `clz` (R579). -/
def execClz (rd ra : Reg) (s : State) : Result :=
  .next ((s.setReg rd (countLeadingZeros (s.reg ra))).advance 4)

/-- `sll.s` (R580). -/
def execSllS (rd ra rb : Reg) (s : State) : Result :=
  .next ((s.setReg rd (sat32 ((s.reg ra).toInt * 2 ^ (amount (s.reg rb)).toNat))).advance 4)

end Sys2Proof.Machine
end

