-- ==== Sys2Proof/Machine/Shift.lean ====
section
/-! DEFINITION. Shifts, rotates and extends, 32 bits wide (41_shift_rotate_extend_32.md). None of them touches memory or raises. -/

namespace Sys2Proof.Machine

/-- `sll` (R230, R236). -/
def execSll (rd ra rb : Reg) (cu : Bool) (s : State) : Result :=
  let n := amount (s.reg rb)
  let r := shiftLeft (s.reg ra) n
  .next (s.computed rd r (onCu cu (shiftFlags r (leftCarry (s.reg ra) n))) 4)

/-- `slli` (R231, R236). -/
def execSlli (rd ra : Reg) (sa : BitVec 5) (cu : Bool) (s : State) : Result :=
  let r := shiftLeft (s.reg ra) sa
  .next (s.computed rd r (onCu cu (shiftFlags r (leftCarry (s.reg ra) sa))) 4)

/-- `srl` (R232, R236). -/
def execSrl (rd ra rb : Reg) (cu : Bool) (s : State) : Result :=
  let n := amount (s.reg rb)
  let r := shiftRight (s.reg ra) n
  .next (s.computed rd r (onCu cu (shiftFlags r (rightCarry (s.reg ra) n))) 4)

/-- `srli` (R233, R236). -/
def execSrli (rd ra : Reg) (sa : BitVec 5) (cu : Bool) (s : State) : Result :=
  let r := shiftRight (s.reg ra) sa
  .next (s.computed rd r (onCu cu (shiftFlags r (rightCarry (s.reg ra) sa))) 4)

/-- `sra` (R234, R236). -/
def execSra (rd ra rb : Reg) (cu : Bool) (s : State) : Result :=
  let n := amount (s.reg rb)
  let r := shiftRightArith (s.reg ra) n
  .next (s.computed rd r (onCu cu (shiftFlags r (rightCarry (s.reg ra) n))) 4)

/-- `srai` (R235, R236). -/
def execSrai (rd ra : Reg) (sa : BitVec 5) (cu : Bool) (s : State) : Result :=
  let r := shiftRightArith (s.reg ra) sa
  .next (s.computed rd r (onCu cu (shiftFlags r (rightCarry (s.reg ra) sa))) 4)

/-- `rol` (R238, R236). -/
def execRol (rd ra rb : Reg) (cu : Bool) (s : State) : Result :=
  let n := amount (s.reg rb)
  .next (s.computed rd (rotateLeft (s.reg ra) n) (onCu cu (rotateFlags (leftCarry (s.reg ra) n))) 4)

/-- `roli` (R239, R236). -/
def execRoli (rd ra : Reg) (sa : BitVec 5) (cu : Bool) (s : State) : Result :=
  .next (s.computed rd (rotateLeft (s.reg ra) sa) (onCu cu (rotateFlags (leftCarry (s.reg ra) sa))) 4)

/-- `ror` (R240, R236). -/
def execRor (rd ra rb : Reg) (cu : Bool) (s : State) : Result :=
  let n := amount (s.reg rb)
  .next (s.computed rd (rotateRight (s.reg ra) n) (onCu cu (rotateFlags (rightCarry (s.reg ra) n))) 4)

/-- `rori` (R241, R236). -/
def execRori (rd ra : Reg) (sa : BitVec 5) (cu : Bool) (s : State) : Result :=
  .next (s.computed rd (rotateRight (s.reg ra) sa) (onCu cu (rotateFlags (rightCarry (s.reg ra) sa))) 4)

/-- `rorc.c` (R242). -/
def execRorc (rd ra rb : Reg) (s : State) : Result :=
  let y := chainRight s.flags.c (s.reg ra) (amount (s.reg rb))
  .next (s.computed rd (y.extractLsb' 0 32) (chainFlags y) 4)

/-- `rolc.c` (R244). -/
def execRolc (rd ra rb : Reg) (s : State) : Result :=
  let y := chainLeft s.flags.c (s.reg ra) (amount (s.reg rb))
  .next (s.computed rd (y.extractLsb' 0 32) (chainFlags y) 4)

/-- `roric.c` (R243). -/
def execRoric (rd ra : Reg) (sa : BitVec 5) (s : State) : Result :=
  let y := chainRight s.flags.c (s.reg ra) sa
  .next (s.computed rd (y.extractLsb' 0 32) (chainFlags y) 4)

/-- `rolic.c` (R245). -/
def execRolic (rd ra : Reg) (sa : BitVec 5) (s : State) : Result :=
  let y := chainLeft s.flags.c (s.reg ra) sa
  .next (s.computed rd (y.extractLsb' 0 32) (chainFlags y) 4)

/-- `extsb` (R246). -/
def execExtsb (rd ra : Reg) (cu : Bool) (s : State) : Result :=
  let r : Word := ((s.reg ra).extractLsb' 0 8).signExtend 32
  .next (s.computed rd r (onCu cu (extendFlags r)) 4)

/-- `extsh` (R247). -/
def execExtsh (rd ra : Reg) (cu : Bool) (s : State) : Result :=
  let r : Word := ((s.reg ra).extractLsb' 0 16).signExtend 32
  .next (s.computed rd r (onCu cu (extendFlags r)) 4)

/-- `extzb` (R248). -/
def execExtzb (rd ra : Reg) (cu : Bool) (s : State) : Result :=
  let r : Word := ((s.reg ra).extractLsb' 0 8).setWidth 32
  .next (s.computed rd r (onCu cu (extendFlags r)) 4)

/-- `extzh` (R249). -/
def execExtzh (rd ra : Reg) (cu : Bool) (s : State) : Result :=
  let r : Word := ((s.reg ra).extractLsb' 0 16).setWidth 32
  .next (s.computed rd r (onCu cu (extendFlags r)) 4)

end Sys2Proof.Machine
end

