-- ==== Sys2Proof/Machine/Short.lean ====
section
/-! DEFINITION. The 16-bit instructions (45_16bit.md). None of them is privileged (R422). -/

namespace Sys2Proof.Machine

/-! ## Arithmetic, logic and shifts (R421) -/

/-- `add!` (R425). -/
def execAdd16 (rd ra : G0) (s : State) : Result :=
  .next (s.computed (g0 rd) (sum (s.reg (g0 rd)) (s.reg (g0 ra)) false) undefNzcv 2)

/-- `addc!` (R426). -/
def execAddc16 (rd ra : G0) (s : State) : Result :=
  .next (s.computed (g0 rd) (sum (s.reg (g0 rd)) (s.reg (g0 ra)) s.flags.c) undefNzcv 2)

/-- `addei!` (R427). -/
def execAddei16 (rd : G0) (exp : BitVec 4) (s : State) : Result :=
  .next (s.computed (g0 rd) (sum (s.reg (g0 rd)) (powerOfTwo exp) false) undefNzcv 2)

/-- `subei!` (R428). -/
def execSubei16 (rd : G0) (exp : BitVec 4) (s : State) : Result :=
  .next (s.computed (g0 rd) (difference (s.reg (g0 rd)) (powerOfTwo exp) true) undefNzcv 2)

/-- `sub!` (R429). -/
def execSub16 (rd ra : G0) (s : State) : Result :=
  .next (s.computed (g0 rd) (difference (s.reg (g0 rd)) (s.reg (g0 ra)) true) undefNzcv 2)

/-- `neg!` (R430). -/
def execNeg16 (rd ra : G0) (s : State) : Result :=
  .next (s.computed (g0 rd) (difference 0 (s.reg (g0 ra)) true) undefNzcv 2)

/-- `cmp!` (R431). -/
def execCmp16 (rd ra : G0) (s : State) : Result :=
  .next (s.tested (subFlags (s.reg (g0 rd)) (s.reg (g0 ra)) true) 2)

/-- `and!` (R435). -/
def execAnd16 (rd ra : G0) (s : State) : Result :=
  .next (s.computed (g0 rd) (s.reg (g0 rd) &&& s.reg (g0 ra)) undefNz 2)

/-- `or!` (R436). -/
def execOr16 (rd ra : G0) (s : State) : Result :=
  .next (s.computed (g0 rd) (s.reg (g0 rd) ||| s.reg (g0 ra)) undefNz 2)

/-- `not!` (R437). -/
def execNot16 (rd ra : G0) (s : State) : Result :=
  .next (s.computed (g0 rd) (~~~s.reg (g0 ra)) undefNz 2)

/-- `xor!` (R438). -/
def execXor16 (rd ra : G0) (s : State) : Result :=
  .next (s.computed (g0 rd) (s.reg (g0 rd) ^^^ s.reg (g0 ra)) undefNz 2)

/-- `bittst!` (R439). -/
def execBittst16 (rd : G0) (bn : BitVec 5) (s : State) : Result :=
  .next (s.tested (bitTestFlags (s.reg (g0 rd)) bn) 2)

/-- `sll!` (R440). -/
def execSll16 (rd ra : G0) (s : State) : Result :=
  .next (s.computed (g0 rd) (shiftLeft (s.reg (g0 rd)) (amount (s.reg (g0 ra)))) undefNzc 2)

/-- `slli!` (R441). -/
def execSlli16 (rd : G0) (sa : BitVec 5) (s : State) : Result :=
  .next (s.computed (g0 rd) (shiftLeft (s.reg (g0 rd)) sa) undefNzc 2)

/-- `srl!` (R442). -/
def execSrl16 (rd ra : G0) (s : State) : Result :=
  .next (s.computed (g0 rd) (shiftRight (s.reg (g0 rd)) (amount (s.reg (g0 ra)))) undefNzc 2)

/-- `srli!` (R443). -/
def execSrli16 (rd : G0) (sa : BitVec 5) (s : State) : Result :=
  .next (s.computed (g0 rd) (shiftRight (s.reg (g0 rd)) sa) undefNzc 2)

/-- `sra!` (R444). -/
def execSra16 (rd ra : G0) (s : State) : Result :=
  .next (s.computed (g0 rd) (shiftRightArith (s.reg (g0 rd)) (amount (s.reg (g0 ra)))) undefNzc 2)

/-! ## Moves -/

/-- `mv!` (R448). -/
def execMv16 (rd ra : G0) (s : State) : Result :=
  .next ((s.setReg (g0 rd) (s.reg (g0 ra))).advance 2)

/-- `mlfh!` (R449). -/
def execMlfh16 (rd ra : G0) (s : State) : Result :=
  .next ((s.setReg (g0 rd) (s.reg (g1 ra))).advance 2)

/-- `mhfl!` (R450). -/
def execMhfl16 (rd ra : G0) (s : State) : Result :=
  .next ((s.setReg (g1 rd) (s.reg (g0 ra))).advance 2)

/-- `ldiu!` (R451). -/
def execLdiu16 (rd : G0) (imm : BitVec 8) (s : State) : Result :=
  .next ((s.setReg (g0 rd) (zext imm)).advance 2)

/-! ## Branches and jumps -/

/-- `b{cond}!` (R455). -/
def execBCond16 (c : Cond) (disp : BitVec 8) (s : State) : Result :=
  .next (s.branched c (branchTarget s.pc disp) 2)

/-- `br{cond}!` (R456). -/
def execBrCond16 (c : Cond) (ra : G0) (s : State) : Result :=
  .next (s.branched c (s.reg (g0 ra)) 2)

/-- `j!` (R457). -/
def execJ16 (disp : BitVec 11) (s : State) : Result :=
  .next { s with pc := jumpTarget16 s.pc disp }

/-- `jl!` (R458): the link is pc + 2, or pc + 4 where the launch sets `Jl16LinkOffset` to 4. -/
def execJl16 (disp : BitVec 11) (s : State) : Result :=
  .next ({ s with pc := jumpTarget16 s.pc disp }.linked (s.pc + if s.cfg.jl16LinkFour then 4 else 2))

/-! ## Loads and stores -/

/-- `lw!` (R460). -/
def execLw16 (rd ra : G0) (s : State) : Result :=
  .next (s.load .w (g0 rd) (s.reg (g0 ra)) 2)

/-- `lh!` (R461). -/
def execLh16 (rd ra : G0) (s : State) : Result :=
  .next (s.load .h (g0 rd) (s.reg (g0 ra)) 2)

/-- `lbu!` (R462). -/
def execLbu16 (rd ra : G0) (s : State) : Result :=
  .next (s.load .bu (g0 rd) (s.reg (g0 ra)) 2)

/-- `sw!` (R463). -/
def execSw16 (rd ra : G0) (s : State) : Result :=
  .next (s.store .word (g0 rd) (s.reg (g0 ra)) 2)

/-- `sh!` (R464). -/
def execSh16 (rd ra : G0) (s : State) : Result :=
  .next (s.store .half (g0 rd) (s.reg (g0 ra)) 2)

/-- `sb!` (R465). -/
def execSb16 (rd ra : G0) (s : State) : Result :=
  .next (s.store .byte (g0 rd) (s.reg (g0 ra)) 2)

/-- `pop!` (R466). -/
def execPop16 (rd : G0) (h : Bool) (base : BitVec 3) (s : State) : Result :=
  let a := s.reg (gBase base)
  .next (s.loadUpdating .w (gh h rd) (gBase base) a (a + 4) 2)

/-- `push!` (R467). -/
def execPush16 (rd : G0) (h : Bool) (base : BitVec 3) (s : State) : Result :=
  let ea := s.reg (gBase base) - 4
  .next (s.storeUpdating .word (gh h rd) (gBase base) ea ea 2)

/-- `lwp!` (R470). -/
def execLwp16 (rd : G0) (imm : BitVec 5) (s : State) : Result :=
  .next (s.load .w (g0 rd) (s.reg basePointer + baseOffset .word imm) 2)

/-- `lhp!` (R471). -/
def execLhp16 (rd : G0) (imm : BitVec 5) (s : State) : Result :=
  .next (s.load .h (g0 rd) (s.reg basePointer + baseOffset .half imm) 2)

/-- `lbup!` (R472). -/
def execLbup16 (rd : G0) (imm : BitVec 5) (s : State) : Result :=
  .next (s.load .bu (g0 rd) (s.reg basePointer + baseOffset .byte imm) 2)

/-- `swp!` (R473). -/
def execSwp16 (rd : G0) (imm : BitVec 5) (s : State) : Result :=
  .next (s.store .word (g0 rd) (s.reg basePointer + baseOffset .word imm) 2)

/-- `shp!` (R474). -/
def execShp16 (rd : G0) (imm : BitVec 5) (s : State) : Result :=
  .next (s.store .half (g0 rd) (s.reg basePointer + baseOffset .half imm) 2)

/-- `sbp!` (R475). -/
def execSbp16 (rd : G0) (imm : BitVec 5) (s : State) : Result :=
  .next (s.store .byte (g0 rd) (s.reg basePointer + baseOffset .byte imm) 2)

/-! ## System -/

/-- `sdbbp!` (R480): sets BrkSt as well. The code is not recorded. -/
def execSdbbp16 (_code : BitVec 5) (s : State) : Result :=
  .next (if s.dreg.dm then s.advance 2 else s.debugEnter true true)

/-- `nop!` (R481). -/
def execNop16 (s : State) : Result :=
  .next (s.advance 2)

/-- `t{cond}!` (R483). -/
def execTCond16 (c : Cond) (s : State) : Result :=
  .next (s.tested { t := .set (s.holds c) } 2)

end Sys2Proof.Machine
end

