-- ==== Sys2Proof/Machine/ShortMac.lean ====
section
/-! DEFINITION. The 16-bit custom-engine instructions (47_enhanced_mac.md R600): the operations of their 32-bit forms on r0..r15. None of them touches a flag or raises. -/

namespace Sys2Proof.Machine

/-- `mtcel!` (R581). -/
def execMtcel16 (ra : G0) (s : State) : Result :=
  .next ({ s with cel := s.reg (g0 ra) }.advance 2)

/-- `mtceh!` (R582). -/
def execMtceh16 (ra : G0) (s : State) : Result :=
  .next ({ s with ceh := s.reg (g0 ra) }.advance 2)

/-- `mfcel!` (R583). -/
def execMfcel16 (ra : G0) (s : State) : Result :=
  .next ((s.setReg (g0 ra) s.cel).advance 2)

/-- `mfceh!` (R584). -/
def execMfceh16 (ra : G0) (s : State) : Result :=
  .next ((s.setReg (g0 ra) s.ceh).advance 2)

/-- `mul.f!` (R585). -/
def execMulF16 (ra rb : G0) (s : State) : Result :=
  .next ((s.accumulated (s.fr (signedProduct (s.reg (g0 ra)) (s.reg (g0 rb))))).advance 2)

/-- `mulu!` (R586). -/
def execMulu16 (ra rb : G0) (s : State) : Result :=
  .next ((s.accumulated (unsignedProduct (s.reg (g0 ra)) (s.reg (g0 rb)))).advance 2)

/-- `mad.f!` (R587). -/
def execMadF16 (ra rb : G0) (s : State) : Result :=
  .next ((s.accumulated (s.acc.toInt + s.fr (signedProduct (s.reg (g0 ra)) (s.reg (g0 rb))))).advance 2)

/-- `madu!` (R588). -/
def execMadu16 (ra rb : G0) (s : State) : Result :=
  .next ((s.accumulated ((s.acc.toNat : Int) + unsignedProduct (s.reg (g0 ra)) (s.reg (g0 rb)))).advance 2)

/-- `msb.f!` (R589). -/
def execMsbF16 (ra rb : G0) (s : State) : Result :=
  .next ((s.accumulated (s.acc.toInt - s.fr (signedProduct (s.reg (g0 ra)) (s.reg (g0 rb))))).advance 2)

/-- `msbu!` (R590). -/
def execMsbu16 (ra rb : G0) (s : State) : Result :=
  .next ((s.accumulated ((s.acc.toNat : Int) - unsignedProduct (s.reg (g0 ra)) (s.reg (g0 rb)))).advance 2)

/-- `mazl.f!` (R591). -/
def execMazlF16 (ra rb : G0) (s : State) : Result :=
  .next ({ s with cel := wrap32 (s.fr (lowProduct (s.reg (g0 ra)) (s.reg (g0 rb)))) }.advance 2)

/-- `mazh.f!` (R592). -/
def execMazhF16 (ra rb : G0) (s : State) : Result :=
  .next ({ s with ceh := wrap32 (s.fr (highProduct (s.reg (g0 ra)) (s.reg (g0 rb)))) }.advance 2)

/-- `madl.fs!` (R593). -/
def execMadlFs16 (ra rb : G0) (s : State) : Result :=
  .next ({ s with cel := sat32 (s.cel.toInt + s.fr (lowProduct (s.reg (g0 ra)) (s.reg (g0 rb)))) }.advance 2)

/-- `madh.fs!` (R594). -/
def execMadhFs16 (ra rb : G0) (s : State) : Result :=
  .next ({ s with ceh := sat32 (s.ceh.toInt + s.fr (highProduct (s.reg (g0 ra)) (s.reg (g0 rb)))) }.advance 2)

/-- `mszl.f!` (R595). -/
def execMszlF16 (ra rb : G0) (s : State) : Result :=
  .next ({ s with cel := wrap32 (-s.fr (lowProduct (s.reg (g0 ra)) (s.reg (g0 rb)))) }.advance 2)

/-- `mszh.f!` (R597). -/
def execMszhF16 (ra rb : G0) (s : State) : Result :=
  .next ({ s with ceh := wrap32 (-s.fr (highProduct (s.reg (g0 ra)) (s.reg (g0 rb)))) }.advance 2)

/-- `msbl.fs!` (R598). -/
def execMsblFs16 (ra rb : G0) (s : State) : Result :=
  .next ({ s with cel := sat32 (s.cel.toInt - s.fr (lowProduct (s.reg (g0 ra)) (s.reg (g0 rb)))) }.advance 2)

/-- `msbh.fs!` (R599). -/
def execMsbhFs16 (ra rb : G0) (s : State) : Result :=
  .next ({ s with ceh := sat32 (s.ceh.toInt - s.fr (highProduct (s.reg (g0 ra)) (s.reg (g0 rb)))) }.advance 2)

end Sys2Proof.Machine
end

