-- ==== Sys2Proof/Machine/System.lean ====
section
/-! DEFINITION. Control-register moves and the system instructions, 32 bits wide (44_system_cop_ce_32.md sections 5 and 8). -/

namespace Sys2Proof.Machine

/-- `nop` (R410). -/
def execNop (s : State) : Result :=
  .next (s.advance 4)

/-- `syscall` (R400). The parameter is not recorded. -/
def execSyscall (_imm : BitVec 15) (s : State) : Result :=
  .next (s.raise .syscall)

/-- `trap{cond}` (R405): the privilege check comes before the condition; code CNZ does nothing. The parameter is not recorded. -/
def execTrapCond (c : Cond) (_imm : BitVec 5) (s : State) : Result :=
  .next (s.controlled (if c ≠ .cnz ∧ s.holds c then s.raise .trap else s.advance 4))

/-- `sdbbp` (R408). The code is not recorded. -/
def execSdbbp (_code : BitVec 5) (s : State) : Result :=
  .next (if s.dreg.dm then s.advance 4 else s.debugEnter true false)

/-- `mtcr` (R383). -/
def execMtcr (rd : Reg) (crn : BitVec 5) (s : State) : Result :=
  .next (s.controlled ((s.setControlReg crn (s.reg rd)).advance 4))

/-- `mfcr` (R382): the value of an unnamed register is a free value (R53; log 26). -/
def execMfcr (rd : Reg) (crn : BitVec 5) (s : State) : Result :=
  .next (s.controlled
    (match s.controlReg crn with
    | some v => (s.setReg rd v).advance 4
    | none => (s.drawReg rd).advance 4))

/-- `rte` (R406, R700). -/
def execRte (s : State) : Result :=
  .next (s.controlled s.returnFromException)

/-- `drte` (R407, R716). -/
def execDrte (s : State) : Result :=
  .next (s.controlled s.returnFromDebug)

/-- `sleep` (R409, R706): the instruction completes and the processor sleeps until the step takes an event. -/
def execSleep (s : State) : Result :=
  .next (s.controlled ({ s with sleeping := true }.advance 4))

end Sys2Proof.Machine
end

