-- ==== Sys2Proof/Machine/Dispatch.lean ====
section
/-! DEFINITION. The meaning of every instruction: one arm per constructor of Instr, in the order of spec/opcode_table.json. -/

namespace Sys2Proof.Machine

/-- What an instruction does to the state. -/
def exec (i : Instr) (s : State) : Host.Outcome State Fault Refusal :=
  match i with
  | .nop => Sys2Proof.Machine.execNop s
  | .syscall imm => Sys2Proof.Machine.execSyscall imm s
  | .trapCond c imm => Sys2Proof.Machine.execTrapCond c imm s
  | .sdbbp code => Sys2Proof.Machine.execSdbbp code s
  | .brCond c ra => Sys2Proof.Machine.execBrCond c ra s
  | .brCondL c ra => Sys2Proof.Machine.execBrCondL c ra s
  | .pflush => Sys2Proof.Machine.execPflush s
  | .add rd ra rb cu => Sys2Proof.Machine.execAdd rd ra rb cu s
  | .addc rd ra rb cu => Sys2Proof.Machine.execAddc rd ra rb cu s
  | .sub rd ra rb cu => Sys2Proof.Machine.execSub rd ra rb cu s
  | .subc rd ra rb cu => Sys2Proof.Machine.execSubc rd ra rb cu s
  | .cmp tcs ra rb => Sys2Proof.Machine.execCmp tcs ra rb s
  | .cmpz tcs ra => Sys2Proof.Machine.execCmpz tcs ra s
  | .neg rd rb cu => Sys2Proof.Machine.execNeg rd rb cu s
  | .and rd ra rb cu => Sys2Proof.Machine.execAnd rd ra rb cu s
  | .or rd ra rb cu => Sys2Proof.Machine.execOr rd ra rb cu s
  | .not rd ra cu => Sys2Proof.Machine.execNot rd ra cu s
  | .xor rd ra rb cu => Sys2Proof.Machine.execXor rd ra rb cu s
  | .bittst ra bn => Sys2Proof.Machine.execBittst ra bn s
  | .sll rd ra rb cu => Sys2Proof.Machine.execSll rd ra rb cu s
  | .srl rd ra rb cu => Sys2Proof.Machine.execSrl rd ra rb cu s
  | .sra rd ra rb cu => Sys2Proof.Machine.execSra rd ra rb cu s
  | .ror rd ra rb cu => Sys2Proof.Machine.execRor rd ra rb cu s
  | .rol rd ra rb cu => Sys2Proof.Machine.execRol rd ra rb cu s
  | .rorc rd ra rb => Sys2Proof.Machine.execRorc rd ra rb s
  | .rolc rd ra rb => Sys2Proof.Machine.execRolc rd ra rb s
  | .mul ra rb => Sys2Proof.Machine.execMul ra rb s
  | .mulF ra rb => Sys2Proof.Machine.execMulF ra rb s
  | .mulu ra rb => Sys2Proof.Machine.execMulu ra rb s
  | .div ra rb => Sys2Proof.Machine.execDiv ra rb s
  | .divu ra rb => Sys2Proof.Machine.execDivu ra rb s
  | .mfcel rd => Sys2Proof.Machine.execMfcel rd s
  | .mfceh rd => Sys2Proof.Machine.execMfceh rd s
  | .mfcehl rd ra => Sys2Proof.Machine.execMfcehl rd ra s
  | .mfcex0 rd => Sys2Proof.Machine.execMfcex0 rd s
  | .mtcel rd => Sys2Proof.Machine.execMtcel rd s
  | .mtceh rd => Sys2Proof.Machine.execMtceh rd s
  | .mtcehl rd ra => Sys2Proof.Machine.execMtcehl rd ra s
  | .mtcex0 rd => Sys2Proof.Machine.execMtcex0 rd s
  | .mfsr rd srn => Sys2Proof.Machine.execMfsr rd srn s
  | .mtsr ra srn => Sys2Proof.Machine.execMtsr ra srn s
  | .tCond c => Sys2Proof.Machine.execTCond c s
  | .mvCond c rd ra => Sys2Proof.Machine.execMvCond c rd ra s
  | .extsb rd ra cu => Sys2Proof.Machine.execExtsb rd ra cu s
  | .extsh rd ra cu => Sys2Proof.Machine.execExtsh rd ra cu s
  | .extzb rd ra cu => Sys2Proof.Machine.execExtzb rd ra cu s
  | .extzh rd ra cu => Sys2Proof.Machine.execExtzh rd ra cu s
  | .lcb ra => Sys2Proof.Machine.execLcb ra s
  | .lcw rd ra => Sys2Proof.Machine.execLcw rd ra s
  | .lce rd ra => Sys2Proof.Machine.execLce rd ra s
  | .scb rd ra => Sys2Proof.Machine.execScb rd ra s
  | .scw rd ra => Sys2Proof.Machine.execScw rd ra s
  | .sce ra => Sys2Proof.Machine.execSce ra s
  | .slli rd ra sa cu => Sys2Proof.Machine.execSlli rd ra sa cu s
  | .srli rd ra sa cu => Sys2Proof.Machine.execSrli rd ra sa cu s
  | .srai rd ra sa cu => Sys2Proof.Machine.execSrai rd ra sa cu s
  | .rori rd ra sa cu => Sys2Proof.Machine.execRori rd ra sa cu s
  | .roli rd ra sa cu => Sys2Proof.Machine.execRoli rd ra sa cu s
  | .roric rd ra sa => Sys2Proof.Machine.execRoric rd ra sa s
  | .rolic rd ra sa => Sys2Proof.Machine.execRolic rd ra sa s
  | .addi rd imm cu => Sys2Proof.Machine.execAddi rd imm cu s
  | .cmpi rd imm => Sys2Proof.Machine.execCmpi rd imm s
  | .andi rd imm cu => Sys2Proof.Machine.execAndi rd imm cu s
  | .ori rd imm cu => Sys2Proof.Machine.execOri rd imm cu s
  | .ldi rd imm => Sys2Proof.Machine.execLdi rd imm s
  | .addis rd imm cu => Sys2Proof.Machine.execAddis rd imm cu s
  | .andis rd imm cu => Sys2Proof.Machine.execAndis rd imm cu s
  | .oris rd imm cu => Sys2Proof.Machine.execOris rd imm cu s
  | .ldis rd imm => Sys2Proof.Machine.execLdis rd imm s
  | .j disp => Sys2Proof.Machine.execJ disp s
  | .jl disp => Sys2Proof.Machine.execJl disp s
  | .lwPre rd ra imm => Sys2Proof.Machine.execLwPre rd ra imm s
  | .lhPre rd ra imm => Sys2Proof.Machine.execLhPre rd ra imm s
  | .lhuPre rd ra imm => Sys2Proof.Machine.execLhuPre rd ra imm s
  | .lbPre rd ra imm => Sys2Proof.Machine.execLbPre rd ra imm s
  | .swPre rd ra imm => Sys2Proof.Machine.execSwPre rd ra imm s
  | .shPre rd ra imm => Sys2Proof.Machine.execShPre rd ra imm s
  | .lbuPre rd ra imm => Sys2Proof.Machine.execLbuPre rd ra imm s
  | .sbPre rd ra imm => Sys2Proof.Machine.execSbPre rd ra imm s
  | .bCond c disp => Sys2Proof.Machine.execBCond c disp s
  | .bCondL c disp => Sys2Proof.Machine.execBCondL c disp s
  | .lwPost rd ra imm => Sys2Proof.Machine.execLwPost rd ra imm s
  | .lhPost rd ra imm => Sys2Proof.Machine.execLhPost rd ra imm s
  | .lhuPost rd ra imm => Sys2Proof.Machine.execLhuPost rd ra imm s
  | .lbPost rd ra imm => Sys2Proof.Machine.execLbPost rd ra imm s
  | .swPost rd ra imm => Sys2Proof.Machine.execSwPost rd ra imm s
  | .shPost rd ra imm => Sys2Proof.Machine.execShPost rd ra imm s
  | .lbuPost rd ra imm => Sys2Proof.Machine.execLbuPost rd ra imm s
  | .sbPost rd ra imm => Sys2Proof.Machine.execSbPost rd ra imm s
  | .mtcr rd crn => Sys2Proof.Machine.execMtcr rd crn s
  | .mfcr rd crn => Sys2Proof.Machine.execMfcr rd crn s
  | .rte => Sys2Proof.Machine.execRte s
  | .drte => Sys2Proof.Machine.execDrte s
  | .sleep => Sys2Proof.Machine.execSleep s
  | .mtc n rd cra => Sys2Proof.Machine.execMtc n rd cra s
  | .mfc n rd cra => Sys2Proof.Machine.execMfc n rd cra s
  | .ldc n rd cra imm => Sys2Proof.Machine.execLdc n rd cra imm s
  | .stc n rd cra imm => Sys2Proof.Machine.execStc n rd cra imm s
  | .cop n code => Sys2Proof.Machine.execCop n code s
  | .mtcc n rd cra => Sys2Proof.Machine.execMtcc n rd cra s
  | .mfcc n rd cra => Sys2Proof.Machine.execMfcc n rd cra s
  | .addri rd ra imm cu => Sys2Proof.Machine.execAddri rd ra imm cu s
  | .andri rd ra imm cu => Sys2Proof.Machine.execAndri rd ra imm cu s
  | .orri rd ra imm cu => Sys2Proof.Machine.execOrri rd ra imm cu s
  | .lw rd ra imm => Sys2Proof.Machine.execLw rd ra imm s
  | .lh rd ra imm => Sys2Proof.Machine.execLh rd ra imm s
  | .lhu rd ra imm => Sys2Proof.Machine.execLhu rd ra imm s
  | .lb rd ra imm => Sys2Proof.Machine.execLb rd ra imm s
  | .sw rd ra imm => Sys2Proof.Machine.execSw rd ra imm s
  | .sh rd ra imm => Sys2Proof.Machine.execSh rd ra imm s
  | .lbu rd ra imm => Sys2Proof.Machine.execLbu rd ra imm s
  | .sb rd ra imm => Sys2Proof.Machine.execSb rd ra imm s
  | .cache op ra imm => Sys2Proof.Machine.execCache op ra imm s
  | .ceinst func5 ra rb usd1 usd2 => Sys2Proof.Machine.execCeinst func5 ra rb usd1 usd2 s
  | .mad ra rb => Sys2Proof.Machine.execMad ra rb s
  | .madu ra rb => Sys2Proof.Machine.execMadu ra rb s
  | .madF ra rb => Sys2Proof.Machine.execMadF ra rb s
  | .msb ra rb => Sys2Proof.Machine.execMsb ra rb s
  | .msbu ra rb => Sys2Proof.Machine.execMsbu ra rb s
  | .msbF ra rb => Sys2Proof.Machine.execMsbF ra rb s
  | .mazl ra rb => Sys2Proof.Machine.execMazl ra rb s
  | .mazlF ra rb => Sys2Proof.Machine.execMazlF ra rb s
  | .madl ra rb => Sys2Proof.Machine.execMadl ra rb s
  | .madlFs ra rb => Sys2Proof.Machine.execMadlFs ra rb s
  | .mszl ra rb => Sys2Proof.Machine.execMszl ra rb s
  | .mszlF ra rb => Sys2Proof.Machine.execMszlF ra rb s
  | .msbl ra rb => Sys2Proof.Machine.execMsbl ra rb s
  | .msblFs ra rb => Sys2Proof.Machine.execMsblFs ra rb s
  | .mazh ra rb => Sys2Proof.Machine.execMazh ra rb s
  | .mazhF ra rb => Sys2Proof.Machine.execMazhF ra rb s
  | .madh ra rb => Sys2Proof.Machine.execMadh ra rb s
  | .madhFs ra rb => Sys2Proof.Machine.execMadhFs ra rb s
  | .mszh ra rb => Sys2Proof.Machine.execMszh ra rb s
  | .mszhF ra rb => Sys2Proof.Machine.execMszhF ra rb s
  | .msbh ra rb => Sys2Proof.Machine.execMsbh ra rb s
  | .msbhFs ra rb => Sys2Proof.Machine.execMsbhFs ra rb s
  | .min rd ra rb => Sys2Proof.Machine.execMin rd ra rb s
  | .max rd ra rb => Sys2Proof.Machine.execMax rd ra rb s
  | .addS rd ra rb => Sys2Proof.Machine.execAddS rd ra rb s
  | .subS rd ra rb => Sys2Proof.Machine.execSubS rd ra rb s
  | .abs rd ra => Sys2Proof.Machine.execAbs rd ra s
  | .absS rd ra => Sys2Proof.Machine.execAbsS rd ra s
  | .bitrev rd ra rb => Sys2Proof.Machine.execBitrev rd ra rb s
  | .clz rd ra => Sys2Proof.Machine.execClz rd ra s
  | .sllS rd ra rb => Sys2Proof.Machine.execSllS rd ra rb s
  | .nop16 => Sys2Proof.Machine.execNop16 s
  | .mlfh16 rd ra => Sys2Proof.Machine.execMlfh16 rd ra s
  | .mhfl16 rd ra => Sys2Proof.Machine.execMhfl16 rd ra s
  | .mv16 rd ra => Sys2Proof.Machine.execMv16 rd ra s
  | .brCond16 c ra => Sys2Proof.Machine.execBrCond16 c ra s
  | .tCond16 c => Sys2Proof.Machine.execTCond16 c s
  | .sll16 rd ra => Sys2Proof.Machine.execSll16 rd ra s
  | .addc16 rd ra => Sys2Proof.Machine.execAddc16 rd ra s
  | .srl16 rd ra => Sys2Proof.Machine.execSrl16 rd ra s
  | .sra16 rd ra => Sys2Proof.Machine.execSra16 rd ra s
  | .mtcel16 ra => Sys2Proof.Machine.execMtcel16 ra s
  | .mtceh16 ra => Sys2Proof.Machine.execMtceh16 ra s
  | .mfcel16 ra => Sys2Proof.Machine.execMfcel16 ra s
  | .mfceh16 ra => Sys2Proof.Machine.execMfceh16 ra s
  | .mulF16 ra rb => Sys2Proof.Machine.execMulF16 ra rb s
  | .mulu16 ra rb => Sys2Proof.Machine.execMulu16 ra rb s
  | .madF16 ra rb => Sys2Proof.Machine.execMadF16 ra rb s
  | .madu16 ra rb => Sys2Proof.Machine.execMadu16 ra rb s
  | .msbF16 ra rb => Sys2Proof.Machine.execMsbF16 ra rb s
  | .msbu16 ra rb => Sys2Proof.Machine.execMsbu16 ra rb s
  | .mazlF16 ra rb => Sys2Proof.Machine.execMazlF16 ra rb s
  | .mazhF16 ra rb => Sys2Proof.Machine.execMazhF16 ra rb s
  | .madlFs16 ra rb => Sys2Proof.Machine.execMadlFs16 ra rb s
  | .madhFs16 ra rb => Sys2Proof.Machine.execMadhFs16 ra rb s
  | .mszlF16 ra rb => Sys2Proof.Machine.execMszlF16 ra rb s
  | .mszhF16 ra rb => Sys2Proof.Machine.execMszhF16 ra rb s
  | .msblFs16 ra rb => Sys2Proof.Machine.execMsblFs16 ra rb s
  | .msbhFs16 ra rb => Sys2Proof.Machine.execMsbhFs16 ra rb s
  | .add16 rd ra => Sys2Proof.Machine.execAdd16 rd ra s
  | .sub16 rd ra => Sys2Proof.Machine.execSub16 rd ra s
  | .neg16 rd ra => Sys2Proof.Machine.execNeg16 rd ra s
  | .cmp16 rd ra => Sys2Proof.Machine.execCmp16 rd ra s
  | .and16 rd ra => Sys2Proof.Machine.execAnd16 rd ra s
  | .or16 rd ra => Sys2Proof.Machine.execOr16 rd ra s
  | .not16 rd ra => Sys2Proof.Machine.execNot16 rd ra s
  | .xor16 rd ra => Sys2Proof.Machine.execXor16 rd ra s
  | .lw16 rd ra => Sys2Proof.Machine.execLw16 rd ra s
  | .lh16 rd ra => Sys2Proof.Machine.execLh16 rd ra s
  | .pop16 rd h base => Sys2Proof.Machine.execPop16 rd h base s
  | .lbu16 rd ra => Sys2Proof.Machine.execLbu16 rd ra s
  | .sw16 rd ra => Sys2Proof.Machine.execSw16 rd ra s
  | .sh16 rd ra => Sys2Proof.Machine.execSh16 rd ra s
  | .push16 rd h base => Sys2Proof.Machine.execPush16 rd h base s
  | .sb16 rd ra => Sys2Proof.Machine.execSb16 rd ra s
  | .j16 disp => Sys2Proof.Machine.execJ16 disp s
  | .jl16 disp => Sys2Proof.Machine.execJl16 disp s
  | .bCond16 c disp => Sys2Proof.Machine.execBCond16 c disp s
  | .ldiu16 rd imm => Sys2Proof.Machine.execLdiu16 rd imm s
  | .addei16 rd exp => Sys2Proof.Machine.execAddei16 rd exp s
  | .subei16 rd exp => Sys2Proof.Machine.execSubei16 rd exp s
  | .slli16 rd sa => Sys2Proof.Machine.execSlli16 rd sa s
  | .sdbbp16 code => Sys2Proof.Machine.execSdbbp16 code s
  | .srli16 rd sa => Sys2Proof.Machine.execSrli16 rd sa s
  | .bittst16 rd bn => Sys2Proof.Machine.execBittst16 rd bn s
  | .lwp16 rd imm => Sys2Proof.Machine.execLwp16 rd imm s
  | .lhp16 rd imm => Sys2Proof.Machine.execLhp16 rd imm s
  | .lbup16 rd imm => Sys2Proof.Machine.execLbup16 rd imm s
  | .swp16 rd imm => Sys2Proof.Machine.execSwp16 rd imm s
  | .shp16 rd imm => Sys2Proof.Machine.execShp16 rd imm s
  | .sbp16 rd imm => Sys2Proof.Machine.execSbp16 rd imm s

end Sys2Proof.Machine
end

