-- ==== Sys2Proof/Machine/Fetch.lean ====
section
/-! DEFINITION. What happens before an instruction executes: the interrupts (60_exceptions.md R705), and the fetch (60_exceptions.md R684). -/

namespace Sys2Proof.Machine

/-! ## Interrupts -/

/-- The lowest number among the lines `l`, `l + 1`, ... of which `n` are left to look at. -/
def lowestFrom (lines : BitVec 16) (l : Nat) : Nat → Option (BitVec 4)
  | 0 => none
  | n + 1 => if lines.getLsbD l then some (BitVec.ofNat 4 l) else lowestFrom lines (l + 1) n

/-- The line that is taken when several are pending: the lowest (R705). -/
def lowestLine (lines : BitVec 16) : Option (BitVec 4) := lowestFrom lines 0 16

/-- The inputs of this step; after the last one of the list nothing is asserted (log 21). -/
def State.now (s : State) : Inputs :=
  match s.inputs with
  | [] => { ext := 0, nmi := false, dbg := false }
  | i :: _ => i

/-- The state with the inputs of this step used up. -/
def State.tick (s : State) : State := { s with inputs := s.inputs.tail }

/-- The event that is taken before the instruction at pc, if any, and the state after its entry (R705): none in Debug Mode (R715), else the debug interrupt, NMI, or an external line that IEc and IM enable. It ends sleep (R706). -/
def State.event (s : State) (i : Inputs) : Option State :=
  let t := { s with sleeping := false }
  if s.dreg.dm then none
  else if i.dbg then some (t.debugEnter false false)
  else if i.nmi then some (t.raise .nmi)
  else if s.psr.iec then (lowestLine (i.ext &&& s.ecr.im)).map fun l => t.raise (.interrupt l)
  else none

/-! ## Fetch -/

/-- The exception of a fetch from an address (R684): bit 0, then MemMap. -/
def State.fetchFault (s : State) (a : Word) : Option Exc :=
  if a.getLsbD 0 then some .adelInst else s.mapFault .fetch a

/-- What the fetch at pc gives. -/
inductive Fetched where
  /-- An instruction. -/
  | instr (i : Instr)
  /-- The exception that it raises, in the state after its entry. -/
  | raised (t : State)
  /-- A fault of the model. -/
  | stopped (f : Fault)
deriving DecidableEq, Repr

/-- The decoder's answer for the unit at pc (R123, R170, R125). -/
def State.decoded (s : State) : Fetched :=
  match decode s.cfg.littleEndian (s.half s.pc) (s.half (s.pc + 2)) with
  | .ok i => .instr i
  | .error .pcePair => .stopped .pcePair
  | .error _ => .raised (s.raise .ri)

/-- The fetch and the decoding at pc, with their exceptions in the order of R684: the second half-word is tested only where the first one is the first half of a pair. -/
def State.fetched (s : State) : Fetched :=
  match s.fetchFault s.pc with
  | some x => .raised (s.raiseAt x s.pc)
  | none =>
    if (s.half s.pc).getLsbD 15 then
      match s.mapFault .fetch (s.pc + 2) with
      | some x => .raised (s.raiseAt x (s.pc + 2))
      | none => s.decoded
    else s.decoded

/-- The state with bytes stored at pc and followed by zeros up to four bytes, the longest instruction. -/
def State.withProgram (s : State) (bs : List Byte) : State := s.write s.pc ((bs ++ [0, 0]).take 4)

end Sys2Proof.Machine
end

