-- ==== Sys2Proof/Machine/Step.lean ====
section
/-! DEFINITION. The step of the machine (60_exceptions.md R684, R705, R706): an event that is due, else the instruction at pc. -/

namespace Sys2Proof.Machine

/-- The instruction at pc fetched and executed, or the exception of its fetch taken (R684). -/
def fetchExec (s : State) : Host.Outcome State Fault Refusal :=
  match s.fetched with
  | .instr i => exec i s
  | .raised t => .next t
  | .stopped f => .fault f

/-- One step: an interrupt that is due is taken before the instruction at pc; while the processor sleeps no instruction is fetched (R705, R706). -/
def step (s : State) : Host.Outcome State Fault Refusal :=
  match s.tick.event s.now with
  | some t => .next t
  | none => if s.sleeping then .next s.tick else fetchExec s.tick

/-- The state with an instruction of the opcode table stored where the next step fetches: at pc, in the machine's byte order (log 2, log 33). -/
def State.withFetchWord (s : State) (nbits w : Nat) : State :=
  s.withProgram (tableBytes s.cfg.littleEndian nbits w)

end Sys2Proof.Machine
end

