-- ==== Sys2Proof/Safety.lean ====
section
/-! DEFINITION. The premise BubblesRespected under which the machine is what a program sees (70_reset_and_hazards.md R745 to R760; log 19), and what counts as a run and how it ends (R765; log 34). -/

namespace Sys2Proof.Machine

/-! ## Required software bubbles -/

/-- The instruction that the step executes, if it executes one. DESIGN CHOICE (log 19): an instruction that raises its exception instead of completing is executed too, as a consumer, as a producer and as a slot; a fetch that raises, and a reserved encoding, are not. -/
def State.executed (s : State) : Option Instr :=
  match s.tick.event s.now with
  | some _ => none
  | none =>
    if s.sleeping then none
    else match s.tick.fetched with
      | .instr i => some i
      | .raised _ | .stopped _ => none

/-- The instructions that the first `n` steps execute. -/
def executedIn : Nat → State → List Instr
  | 0, _ => []
  | n + 1, s =>
    match step s with
    | .next t => s.executed.toList ++ executedIn n t
    | .fault _ | .refused _ => s.executed.toList

/-- The kinds of producer of R760, with the number of slots that it still needs. -/
structure Slots where
  cr0 : Nat := 0
  cu : Nat := 0
  cr1 : Nat := 0
  cr4 : Nat := 0
  dcache : Nat := 0
  icache : Nat := 0
  lcr : Nat := 0
  scr : Nat := 0
deriving DecidableEq, Repr

/-- The instructions that read a flag (R751). DESIGN CHOICE (log 19): `addc!`, which the rule's list leaves out, is one of them; `mfcr` of cr1, which copies the flags, and `rte`, which restores the saved ones, are not. -/
def readsFlag : Instr → Bool
  | .brCond .. | .brCondL .. | .bCond .. | .bCondL .. | .mvCond .. | .tCond .. | .trapCond .. => true
  | .addc .. | .subc .. | .rorc .. | .rolc .. | .roric .. | .rolic .. => true
  | .bCond16 .. | .brCond16 .. | .tCond16 .. | .addc16 .. => true
  | _ => false

/-- The coprocessor instructions (R752). -/
def usesCoprocessor : Instr → Bool
  | .mtc .. | .mfc .. | .ldc .. | .stc .. | .cop .. | .mtcc .. | .mfcc .. => true
  | _ => false

/-- The instructions that may stand in a slot that every instruction but a filler consumes (R753). -/
def isFiller : Instr → Bool
  | .nop | .nop16 | .pflush => true
  | _ => false

/-- The loads and stores (R756). -/
def accessesData : Instr → Bool
  | .lw .. | .lwPre .. | .lwPost .. | .lh .. | .lhPre .. | .lhPost .. | .lhu .. | .lhuPre .. | .lhuPost .. => true
  | .lb .. | .lbPre .. | .lbPost .. | .lbu .. | .lbuPre .. | .lbuPost .. => true
  | .sw .. | .swPre .. | .swPost .. | .sh .. | .shPre .. | .shPost .. | .sb .. | .sbPre .. | .sbPost .. => true
  | .lcb .. | .lcw .. | .lce .. | .scb .. | .scw .. | .sce .. | .ldc .. | .stc .. => true
  | .lw16 .. | .lh16 .. | .lbu16 .. | .sw16 .. | .sh16 .. | .sb16 .. | .pop16 .. | .push16 .. => true
  | .lwp16 .. | .lhp16 .. | .lbup16 .. | .swp16 .. | .shp16 .. | .sbp16 .. => true
  | _ => false

/-- `mfsr` of the special register `n`. -/
def readsSpecial (n : BitVec 5) : Instr → Bool
  | .mfsr _ srn => srn == n
  | _ => false

/-- The instruction consumes what a producer has not yet delivered (R760). -/
def violates (p : Slots) (i : Instr) : Bool :=
  (p.cr0 != 0 || p.cr4 != 0 || p.icache != 0) && !isFiller i ||
    p.cu != 0 && usesCoprocessor i || p.cr1 != 0 && readsFlag i || p.dcache != 0 && accessesData i ||
    p.lcr != 0 && readsSpecial 1 i || p.scr != 0 && readsSpecial 2 i

/-- One slot has gone by. -/
def Slots.pass (p : Slots) : Slots where
  cr0 := p.cr0 - 1
  cu := p.cu - 1
  cr1 := p.cr1 - 1
  cr4 := p.cr4 - 1
  dcache := p.dcache - 1
  icache := p.icache - 1
  lcr := p.lcr - 1
  scr := p.scr - 1

/-- The operations of Table 2-2 that act on the I-cache or LIM (R344). -/
def cacheOpInstruction (op : BitVec 5) : Bool :=
  [0x00#5, 0x01#5, 0x02#5, 0x03#5, 0x04#5, 0x10#5, 0x11#5].contains op

/-- The slots that are needed after the instruction (R746, R751 to R757). -/
def Slots.after (p : Slots) (i : Instr) : Slots :=
  match i with
  | .pflush => {}
  | .mtcr _ crn =>
    match crn.toNat with
    | 0 => { p.pass with cr0 := 5, cu := 3 }
    | 1 => { p.pass with cr1 := 1 }
    | 4 => { p.pass with cr4 := 6 }
    | _ => p.pass
  | .cache op _ _ =>
    if !cacheOpDefined op then p.pass
    else if cacheOpInstruction op then { p.pass with icache := 5 }
    else { p.pass with dcache := 1 }
  | .lcb .. | .lcw .. | .lce .. => { p.pass with lcr := 3 }
  | .scb .. | .scw .. | .sce .. => { p.pass with scr := 3 }
  | _ => p.pass

/-- BubblesRespected over a list of executed instructions (R745): distances count executed instructions of either width. -/
def bubblesFrom (p : Slots) : List Instr → Bool
  | [] => true
  | i :: is => !violates p i && bubblesFrom (p.after i) is

/-- The first `n` steps from the state respect the required bubbles. -/
def bubblesRespected (n : Nat) (s : State) : Bool := bubblesFrom {} (executedIn n s)

/-! ## The end of a run (log 34) -/

/-- How a run ends (R765). -/
inductive RunEnd where
  /-- pc reached HaltPC. -/
  | normal (s : State)
  /-- Asleep, and no input will ever wake the processor. -/
  | asleep (s : State)
  | fault (f : Fault)
  | refused (r : Refusal)
  /-- The run refuses: the instruction about to execute breaks BubblesRespected (R745). -/
  | bubbleMissing (i : Instr) (s : State)
  /-- The fuel is spent. -/
  | unfinished (s : State)
deriving DecidableEq, Repr

/-- At HaltPC, about to fetch. -/
def State.halted (s : State) (haltPc : Word) : Bool :=
  !s.sleeping && (s.tick.event s.now).isNone && s.pc == haltPc

/-- Asleep, with inputs that are empty from here on. -/
def State.asleepForEver (s : State) : Bool :=
  s.sleeping && s.inputs.all fun i => i == { ext := 0, nmi := false, dbg := false }

/-- The run is over before any further step: at HaltPC, or asleep for ever. -/
def State.ended (s : State) (haltPc : Word) : Option RunEnd :=
  if s.halted haltPc then some (.normal s) else if s.asleepForEver then some (.asleep s) else none

/-- A run in the middle, with the slots that the instructions so far still need. -/
def runFrom (haltPc : Word) : Nat → Slots → State → RunEnd
  | 0, _, s => (s.ended haltPc).getD (.unfinished s)
  | fuel + 1, p, s =>
    match s.ended haltPc, s.executed with
    | some e, _ => e
    | none, some i =>
      if violates p i then .bubbleMissing i s
      else match step s with
        | .next t => runFrom haltPc fuel (p.after i) t
        | .fault f => .fault f
        | .refused r => .refused r
    | none, none =>
      match step s with
      | .next t => runFrom haltPc fuel p t
      | .fault f => .fault f
      | .refused r => .refused r

/-- A run with a halt address and a step bound (R765), from a state whose launch parameters are legal. -/
def run (haltPc : Word) (fuel : Nat) (s : State) : RunEnd := runFrom haltPc fuel {} s

end Sys2Proof.Machine
end

