-- ==== Sys2Proof/Certificates/Slice0/Obligations.lean ====
section
/-! DEFINITION. The statements for the provers. Each says what the spec's rules that its docstring names say of the machine; a statement about every state holds for every value of the launch parameters and of the free values. -/

section

open Sys2Proof Sys2Proof.Machine

/-! ## Encoding -/

/-- Decoding an encoded instruction gives it back: every well-formed instruction, in either byte order (R123, R126 to R145). It rests also on decisions D2, D28 of 92_eei_decisions.md, which the spec marks as its own; and on log 32. -/
def Obligations.DecodeInvertsEncode : Prop :=
  ∀ (i : Instr) (littleEndian : Bool), i.wellFormed = true →
    decodeBytes littleEndian (encodeBytes littleEndian i) = .ok (i, [])

/-- Whatever decodes is well formed and encodes to the half-words that were decoded: no bit of a word is ignored, and no reserved encoding is taken for a neighbour (R123, R170, D27). It rests also on decisions D2, D27 of 92_eei_decisions.md, which the spec marks as its own; and on log 18. -/
def Obligations.EncodeInvertsDecode : Prop :=
  ∀ (littleEndian : Bool) (h0 h1 : Half) (i : Instr), decode littleEndian h0 h1 = .ok i →
    i.wellFormed = true ∧ encode littleEndian i = [h0, h1].take (i.size / 2)

/-- Words that the spec prints decode to the instructions that it prints them for (R181, R242, R275, R318, R334, R405, R392, R395, R558, R466, R428, R597, in the order of the clauses). It rests also on decisions D28 of 92_eei_decisions.md, which the spec marks as its own; and on log 32, 33. -/
def Obligations.SpecWordsDecode : Prop :=
  decodeTableWord 32 0x80838810 = some (.add 4 3 2 false) ∧
    decodeTableWord 32 0x8082903B = some (.rorc 4 2 4) ∧
    decodeTableWord 32 0x93FF83FD = some (.bCondL .cs (-2)) ∧
    decodeTableWord 32 0x8C40FFE4 = some (.swPre 2 0 (-4)) ∧
    decodeTableWord 32 0x80828068 = some (.scb 4 2) ∧
    decodeTableWord 32 0x800E9004 = some (.trapCond .eq 0x0E) ∧
    decodeTableWord 32 0x98A4CFEC = some (.cop 1 0x2927F) ∧
    decodeTableWord 32 0xE8229040 = some (.ceinst 0 2 4 1 2) ∧
    decodeTableWord 32 0xF0028CC2 = some (.madlFs 2 3) ∧
    decodeTableWord 16 0x22AA = some (.pop16 2 true 2) ∧
    decodeTableWord 16 0x6AF0 = some (.subei16 10 0xE) ∧
    decodeTableWord 16 0x123D = some (.mszhF16 2 3)

/-! ## The step -/

/-- With no event due, awake, at an even pc that may be fetched from, the step executes the instruction that the unit at pc decodes to, on the state whose inputs of this step are used up (R123, R684). It rests also on decisions D2, D4, D13, D36 of 92_eei_decisions.md, which the spec marks as its own. -/
def Obligations.StepExecutesDecoded : Prop :=
  ∀ (s : State) (i : Instr), s.tick.event s.now = none → s.sleeping = false → s.pc.getLsbD 0 = false →
    s.memMap s.pc .fetch = .ok → ((s.half s.pc).getLsbD 15 = true → s.memMap (s.pc + 2) .fetch = .ok) →
    decode s.cfg.littleEndian (s.half s.pc) (s.half (s.pc + 2)) = .ok i →
    step s = exec i { s with inputs := s.inputs.tail }

/-- The exceptions of the fetch, in order, each with EPC = pc and the address that could not be fetched, and RI for a reserved encoding (R684); on a PCE pair, whose second half-word alone has its P bit 0, the model stops (R125). It rests also on decisions D4, D28 of 92_eei_decisions.md, which the spec marks as its own; and on log 16. -/
def Obligations.FetchExceptions : Prop :=
  ∀ s : State, s.tick.event s.now = none → s.sleeping = false →
    let taken (x : Exc) (addr : Option Word) := step s = .next ({ s with inputs := s.inputs.tail }.enter x s.pc addr)
    if s.pc.getLsbD 0 then taken .adelInst (some s.pc)
    else if s.memMap s.pc .fetch = .addressError then taken .adelInst (some s.pc)
    else if s.memMap s.pc .fetch = .busError then taken .busErrInst (some s.pc)
    else if (s.half s.pc).getLsbD 15 ∧ s.memMap (s.pc + 2) .fetch = .addressError then
      taken .adelInst (some (s.pc + 2))
    else if (s.half s.pc).getLsbD 15 ∧ s.memMap (s.pc + 2) .fetch = .busError then
      taken .busErrInst (some (s.pc + 2))
    else if (s.half s.pc).getLsbD 15 ∧ (s.half (s.pc + 2)).getLsbD 15 = false then step s = .fault .pcePair
    else decode s.cfg.littleEndian (s.half s.pc) (s.half (s.pc + 2)) = .error .reserved → taken .ri none

/-- An event is taken before the instruction at pc: outside Debug Mode the debug interrupt, else NMI, else the lowest pending external line that IEc and IM enable, with EPC (DEPC) = pc; it ends sleep. Where none is due a sleeping processor stays as it is, with or without inputs left (R705, R706, R715). It rests also on decisions D13, D36, D47 of 92_eei_decisions.md, which the spec marks as its own; and on log 20, 21, 22. -/
def Obligations.InterruptsAndSleep : Prop :=
  ∀ s : State,
    (s.inputs = [] → s.sleeping = true → step s = .next s) ∧
    ∀ (i : Inputs) (rest : List Inputs), s.inputs = i :: rest →
      let awake : State := { s with inputs := rest, sleeping := false }
      let due (l : Nat) : Prop := i.ext.getLsbD l = true ∧ s.ecr.im.getLsbD l = true
      (s.dreg.dm = false → i.dbg = true →
        step s = .next { awake with
          depc := s.pc, pc := s.debugVector, dreg := { s.dreg with dm := true } }) ∧
      (s.dreg.dm = false → i.dbg = false → i.nmi = true → step s = .next (awake.enter .nmi s.pc none)) ∧
      (s.dreg.dm = false → i.dbg = false → i.nmi = false → s.psr.iec = true →
        ∀ l : BitVec 4, due l.toNat → (∀ k < l.toNat, ¬due k) →
          step s = .next (awake.enter (.interrupt l) s.pc none)) ∧
      (s.sleeping = true →
        (s.dreg.dm = true ∨ i.dbg = false ∧ i.nmi = false ∧ (s.psr.iec = false ∨ ∀ l < 16, ¬due l)) →
        step s = .next { s with inputs := rest })

/-! ## Exceptions, modes, privilege -/

/-- Exception entry: mode, interrupt enable and flags saved, Exc_code (7 for Syscall, 10 for Trap), EPC and, with an address, EMA written, Kernel mode with interrupts disabled, control at the handler; nothing else changes (R691, R692). It rests also on decisions D10, D46 of 92_eei_decisions.md, which the spec marks as its own. -/
def Obligations.ExceptionEntry : Prop :=
  ∀ (s : State) (x : Exc) (epc : Word) (addr : Option Word),
    let t := s.enter x epc addr
    t.psr.ums = s.psr.umc ∧ t.psr.ies = s.psr.iec ∧ t.psr.umc = false ∧ t.psr.iec = false ∧
      t.savedFlags = s.flags ∧ t.ecr.excCode = excCode s.cfg x ∧ t.epc = epc ∧
      t.ema = (match addr with | some a => a | none => s.ema) ∧ t.pc = s.excVector x ∧
      (x = .syscall → t.ecr.excCode = 7) ∧ (x = .trap → t.ecr.excCode = 10) ∧
      t = { s with
        psr := { s.psr with ums := t.psr.ums, ies := t.psr.ies, umc := t.psr.umc, iec := t.psr.iec }
        savedFlags := t.savedFlags, ecr := { s.ecr with excCode := t.ecr.excCode }
        epc := t.epc, ema := t.ema, pc := t.pc }

/-- A handler that returns at once: `rte` after an exception entry restores the mode, the interrupt enable and the flags of the interrupted program and goes to the EPC of the entry; registers and memory are as they were (R691, R700). It rests also on decisions D46 of 92_eei_decisions.md, which the spec marks as its own. -/
def Obligations.ReturnAfterEntry : Prop :=
  ∀ (s : State) (x : Exc) (epc : Word) (addr : Option Word),
    ∃ t, exec .rte (s.enter x epc addr) = .next t ∧
      t.pc = epc ∧ t.psr.umc = s.psr.umc ∧ t.psr.iec = s.psr.iec ∧ t.flags = s.flags ∧
      t.gpr = s.gpr ∧ t.mem = s.mem ∧ t.acc = s.acc ∧ t.cnt = s.cnt ∧ t.lcr = s.lcr ∧ t.scr = s.scr ∧
      t.psr.cra = s.psr.cra ∧ t.dreg = s.dreg

/-- `sdbbp` and `sdbbp!` outside Debug Mode enter it with DEPC at themselves, whatever the mode, and `drte` then comes back to them with Debug Mode left; a software breakpoint inside Debug Mode does nothing. The debug vector is 0xFF000000 where `ice_enable` and `sj_probe_en` are both 1, else it has cr3[31:16] above 0x01FC (R408, R480, R715, R716). It rests also on decisions D47 of 92_eei_decisions.md, which the spec marks as its own; and on log 38. -/
def Obligations.DebugEntryAndReturn : Prop :=
  ∀ (s : State) (code : BitVec 5),
    let entered (b : Bool) : State := { s with
      depc := s.pc, pc := s.debugVector
      dreg := { s.dreg with dm := true, dbp := true, brkSt := b || s.dreg.brkSt } }
    (s.dreg.dm = false →
      exec (.sdbbp code) s = .next (entered false) ∧ exec (.sdbbp16 code) s = .next (entered true) ∧
        ∀ b, exec .drte (entered b) = .next { entered b with
          pc := s.pc, dreg := { s.dreg with dm := false, dbp := true, brkSt := b || s.dreg.brkSt } }) ∧
    (s.dreg.dm = true →
      exec (.sdbbp code) s = .next { s with pc := s.pc + 4 } ∧
        exec (.sdbbp16 code) s = .next { s with pc := s.pc + 2 }) ∧
    (s.cfg.iceEnable = true ∧ s.cfg.sjProbeEn = true → s.debugVector = 0xFF000000) ∧
    (¬(s.cfg.iceEnable = true ∧ s.cfg.sjProbeEn = true) →
      s.debugVector.toNat = s.excpVec.toNat / 2 ^ 16 * 2 ^ 16 + 0x01FC)

/-- The six control instructions raise CCU, with no other effect, wherever the processor is in User mode, not in Debug Mode and cra is 0; `Privileged()` is the rest of the states (R712). It rests also on decisions D22, D37 of 92_eei_decisions.md, which the spec marks as its own; and on log 40. -/
def Obligations.ControlInstructionsNeedPrivilege : Prop :=
  ∀ (s : State) (c : Cond) (imm crn : BitVec 5) (rd : Reg),
    let unprivileged := s.psr.umc = true ∧ s.dreg.dm = false ∧ s.psr.cra = false
    (unprivileged → ∀ i ∈ [Instr.mfcr rd crn, .mtcr rd crn, .rte, .drte, .sleep, .trapCond c imm],
      exec i s = .next (s.enter .ccu s.pc none)) ∧
    (s.privileged = true ↔ ¬unprivileged)

/-- A step in User mode without cra leaves the control registers as they are, or it takes an exception or an interrupt, which saves User mode and ends in Kernel mode at the handler, or it enters Debug Mode at the debug vector (R710, R712). It rests also on decisions D22, D46, D47 of 92_eei_decisions.md, which the spec marks as its own. -/
def Obligations.UserModeConfined : Prop :=
  ∀ s t : State, s.psr.umc = true → s.psr.cra = false → s.dreg.dm = false → step s = .next t →
    t.excpVec = s.excpVec ∧ t.ccr = s.ccr ∧ t.limpfn = s.limpfn ∧ t.ldmpfn = s.ldmpfn ∧ t.prev = s.prev ∧
      t.dsave = s.dsave ∧ t.condRest = s.condRest ∧ t.ecr.im = s.ecr.im ∧ t.psr.cra = s.psr.cra ∧
      t.psr.cu1 = s.psr.cu1 ∧ t.psr.cu2 = s.psr.cu2 ∧ t.psr.cu3 = s.psr.cu3 ∧
      (t.psr = s.psr ∧ t.dreg = s.dreg ∧ t.depc = s.depc ∧ t.ecr = s.ecr ∧ t.epc = s.epc ∧ t.ema = s.ema ∧
          t.savedFlags = s.savedFlags ∨
        (∃ x, t.pc = s.excVector x ∧ t.ecr.excCode = excCode s.cfg x) ∧
          t.psr.umc = false ∧ t.psr.iec = false ∧ t.psr.ums = true ∧ t.psr.ies = s.psr.iec ∧
          t.savedFlags = s.flags ∧ t.dreg = s.dreg ∧ t.depc = s.depc ∨
        t.pc = s.debugVector ∧ t.dreg.dm = true ∧ t.depc = s.pc ∧ t.psr = s.psr ∧ t.ecr = s.ecr ∧ t.epc = s.epc)

/-! ## Invariants and reset -/

/-- Every step keeps memory in its canonical form (log 3). -/
def Obligations.StepKeepsMemoryForm : Prop :=
  ∀ s t : State, Memory.wf s.mem = true → step s = .next t → Memory.wf t.mem = true

/-- Memory after reset has the canonical form. -/
def Obligations.ResetMemoryForm : Prop := Memory.wf State.reset.mem = true

/-- No step changes the launch parameters or the processor revision register, and every step keeps the remainders of the packed control registers free of bits at the places of named fields (R50, R766, R41). It rests also on decisions D21, D44 of 92_eei_decisions.md, which the spec marks as its own; and on log 31. -/
def Obligations.StepKeepsLaunch : Prop :=
  ∀ s t : State, step s = .next t → t.cfg = s.cfg ∧ t.prev = s.prev ∧
    (s.remaindersClear = true → t.remaindersClear = true)

/-- What reset leaves, in the values that the spec gives: Kernel mode, interrupts disabled, every line masked, not in Debug Mode; and PC, cr3 and cr18 hold their launch parameters (R741). The model's own: the launch after reset is legal (R682, R41) and the remainders of the packed registers hold no bit at a field's place. It rests also on decisions D9, D10, D21 of 92_eei_decisions.md, which the spec marks as its own; and on log 1, 2, 6, 8. -/
def Obligations.ResetValues : Prop :=
  State.reset.psr.umc = false ∧ State.reset.psr.iec = false ∧ State.reset.ecr.im = 0 ∧
    State.reset.dreg.dm = false ∧ State.reset.pc = resetPc ∧ State.reset.excpVec = resetExcpBase ∧
    State.reset.prev = prevValue ∧ State.reset.mode = .kernel ∧ State.reset.sleeping = false ∧
    launchLegal State.reset.cfg = true ∧ State.reset.remaindersClear = true

/-! ## Memory -/

/-- Byte order of half-words and words, read and stored, for either value of LittleEndian (R81). -/
def Obligations.ByteOrder : Prop :=
  ∀ (s : State) (a v : Word),
    let b (i : Word) : Nat := (s.byte (a + i)).toNat
    let after (w : Width) (k : Nat) : Nat := ((s.stored w a v).byte (a + BitVec.ofNat 32 k)).toNat
    (s.cfg.littleEndian = false →
      (s.half a).toNat = b 0 * 2 ^ 8 + b 1 ∧
        (s.word a).toNat = b 0 * 2 ^ 24 + b 1 * 2 ^ 16 + b 2 * 2 ^ 8 + b 3 ∧
        (Memory.wf s.mem = true →
          (∀ k < 2, after .half k = v.toNat / 2 ^ (8 * (1 - k)) % 2 ^ 8) ∧
            ∀ k < 4, after .word k = v.toNat / 2 ^ (8 * (3 - k)) % 2 ^ 8)) ∧
    (s.cfg.littleEndian = true →
      (s.half a).toNat = b 1 * 2 ^ 8 + b 0 ∧
        (s.word a).toNat = b 3 * 2 ^ 24 + b 2 * 2 ^ 16 + b 1 * 2 ^ 8 + b 0 ∧
        (Memory.wf s.mem = true →
          (∀ k < 2, after .half k = v.toNat / 2 ^ (8 * k) % 2 ^ 8) ∧
            ∀ k < 4, after .word k = v.toNat / 2 ^ (8 * k) % 2 ^ 8))

/-- A load of the size of a store, at the same address, gives the low part of what was stored, in either byte order; bytes outside the stored ones read as before (R81, R88). It rests also on log 3. -/
def Obligations.StoreThenLoad : Prop :=
  ∀ (s : State) (w : Width) (a v : Word), Memory.wf s.mem = true →
    let t := s.stored w a v
    (w = .word → t.word a = v) ∧ (w = .half → (t.half a).toNat = v.toNat % 2 ^ 16) ∧
      (w = .byte → (t.byte a).toNat = v.toNat % 2 ^ 8) ∧
      ∀ x, (∀ i < w.bytes, x ≠ a + BitVec.ofNat 32 i) → t.byte x = s.byte x

/-- A named control register reads back what was written to it, whatever the places of its fields; cr2 where Exc_code is writable, and cr18 ignores the write; that the bits which no field takes read back too is the model's choice (R41, R50, R383). It rests also on decisions D21 of 92_eei_decisions.md, which the spec marks as its own; and on log 6, 15, 31. -/
def Obligations.ControlRegisterReadBack : Prop :=
  ∀ (s : State) (n : BitVec 5) (v : Word),
    (n ∈ [0#5, 1#5, 3#5, 4#5, 5#5, 6#5, 15#5, 16#5, 29#5, 30#5, 31#5] →
      (s.setControlReg n v).controlReg n = some v) ∧
    (s.cfg.excCodeWritable = true → (s.setControlReg 2 v).controlReg 2 = some v) ∧
    (s.setControlReg 18 v).controlReg 18 = some s.prev
/-! ## Arithmetic and logic (40_arith_logic_32.md) -/

/-- `add`, `addi`, `addis`, `addri`, `addc`: the sum modulo 2^32, with C the carry out and V the signed overflow where CU is 1; no other flag, register or memory changes; and the encoding of each (R181 to R185). -/
def Obligations.Additions : Prop :=
  ∀ (s : State) (rd ra rb : Reg) (imm16 : BitVec 16) (imm14 : BitVec 14) (cu : Bool),
    let result (a b : Word) (c : Bool) : State :=
      let u : Int := (a.toNat : Int) + b.toNat + c.toNat
      let v : Int := a.toInt + b.toInt + c.toNat
      let r := BitVec.ofInt 32 u
      { s.setReg rd r with
        flags := if cu then
          { s.flags with
            n := decide (r.toInt < 0), z := decide (r.toNat = 0), c := decide (2 ^ 32 ≤ u)
            v := decide (v < -2 ^ 31 ∨ 2 ^ 31 - 1 < v) } else s.flags
        pc := s.pc + 4 }
    exec (.add rd ra rb cu) s = .next (result (s.reg ra) (s.reg rb) false) ∧
      exec (.addc rd ra rb cu) s = .next (result (s.reg ra) (s.reg rb) s.flags.c) ∧
      exec (.addi rd imm16 cu) s = .next (result (s.reg rd) (BitVec.ofInt 32 imm16.toInt) false) ∧
      exec (.addis rd imm16 cu) s = .next (result (s.reg rd) (BitVec.ofNat 32 (imm16.toNat * 2 ^ 16)) false) ∧
      exec (.addri rd ra imm14 cu) s = .next (result (s.reg ra) (BitVec.ofInt 32 imm14.toInt) false) ∧
      (Instr.add rd ra rb cu).effective = .long (0b00000#5 ++ rd ++ ra ++ rb ++ 0b000#3 ++ 0b001000#6 ++ BitVec.ofBool cu) ∧
      (Instr.addc rd ra rb cu).effective = .long (0b00000#5 ++ rd ++ ra ++ rb ++ 0b000#3 ++ 0b001001#6 ++ BitVec.ofBool cu) ∧
      (Instr.addi rd imm16 cu).effective = .long (0b00001#5 ++ rd ++ 0b000#3 ++ imm16 ++ BitVec.ofBool cu) ∧
      (Instr.addis rd imm16 cu).effective = .long (0b00101#5 ++ rd ++ 0b000#3 ++ imm16 ++ BitVec.ofBool cu) ∧
      (Instr.addri rd ra imm14 cu).effective = .long (0b01000#5 ++ rd ++ ra ++ imm14 ++ BitVec.ofBool cu)

/-- `sub`, `subc`, `neg`: the difference modulo 2^32, with C = NOT borrow and V the signed overflow where CU is 1; nothing else changes; and the encoding of each (R186 to R188). -/
def Obligations.Subtractions : Prop :=
  ∀ (s : State) (rd ra rb : Reg) (cu : Bool),
    let result (a b : Word) (c : Bool) : State :=
      let u : Int := (a.toNat : Int) - b.toNat - (1 - c.toNat)
      let v : Int := a.toInt - b.toInt - (1 - c.toNat)
      let r := BitVec.ofInt 32 u
      { s.setReg rd r with
        flags := if cu then
          { s.flags with
            n := decide (r.toInt < 0), z := decide (r.toNat = 0), c := decide (0 ≤ u)
            v := decide (v < -2 ^ 31 ∨ 2 ^ 31 - 1 < v) } else s.flags
        pc := s.pc + 4 }
    exec (.sub rd ra rb cu) s = .next (result (s.reg ra) (s.reg rb) true) ∧
      exec (.subc rd ra rb cu) s = .next (result (s.reg ra) (s.reg rb) s.flags.c) ∧
      exec (.neg rd rb cu) s = .next (result 0 (s.reg rb) true) ∧
      (Instr.sub rd ra rb cu).effective = .long (0b00000#5 ++ rd ++ ra ++ rb ++ 0b000#3 ++ 0b001010#6 ++ BitVec.ofBool cu) ∧
      (Instr.subc rd ra rb cu).effective = .long (0b00000#5 ++ rd ++ ra ++ rb ++ 0b000#3 ++ 0b001011#6 ++ BitVec.ofBool cu) ∧
      (Instr.neg rd rb cu).effective = .long (0b00000#5 ++ rd ++ 0b00000#5 ++ rb ++ 0b000#3 ++ 0b001111#6 ++ BitVec.ofBool cu)

/-- The compares write N, Z, C, V of the difference, T as TCS says, and no register (R200 to R202, R431). -/
def Obligations.Compares : Prop :=
  ∀ (s : State) (tcs : Tcs) (ra rb rd : Reg) (imm : BitVec 16) (rd16 ra16 : G0),
    let result (tcs : Tcs) (a b : Word) (len : Word) : State :=
      let v : Int := a.toInt - b.toInt
      let n := decide ((BitVec.ofInt 32 v).toInt < 0)
      let z := decide (a.toNat = b.toNat)
      { s with
        flags :=
          { n := n, z := z, c := decide (b.toNat ≤ a.toNat), v := decide (v < -2 ^ 31 ∨ 2 ^ 31 - 1 < v)
            t := if tcs = .teq then z else if tcs = .tmi then n else s.flags.t }
        pc := s.pc + len }
    exec (.cmp tcs ra rb) s = .next (result tcs (s.reg ra) (s.reg rb) 4) ∧
      exec (.cmpz tcs ra) s = .next (result tcs (s.reg ra) 0 4) ∧
      exec (.cmpi rd imm) s = .next (result .plain (s.reg rd) (BitVec.ofInt 32 imm.toInt) 4) ∧
      exec (.cmp16 rd16 ra16) s = .next (result .plain (s.reg (g0 rd16)) (s.reg (g0 ra16)) 2)

/-- After `cmp.c a, b` the conditions read as comparisons of a and b: CS, CC, GTU, LEU unsigned, EQ and NE equality, GT, LE, GE, LT signed (R33, R200). -/
def Obligations.CompareThenCondition : Prop :=
  ∀ (s : State) (tcs : Tcs) (ra rb : Reg), ∃ t, exec (.cmp tcs ra rb) s = .next t ∧
    let a := s.reg ra
    let b := s.reg rb
    (t.holds .cs = true ↔ b.toNat ≤ a.toNat) ∧ (t.holds .cc = true ↔ a.toNat < b.toNat) ∧
      (t.holds .gtu = true ↔ b.toNat < a.toNat) ∧ (t.holds .leu = true ↔ a.toNat ≤ b.toNat) ∧
      (t.holds .eq = true ↔ a = b) ∧ (t.holds .ne = true ↔ a ≠ b) ∧
      (t.holds .gt = true ↔ b.toInt < a.toInt) ∧ (t.holds .le = true ↔ a.toInt ≤ b.toInt) ∧
      (t.holds .ge = true ↔ b.toInt ≤ a.toInt) ∧ (t.holds .lt = true ↔ a.toInt < b.toInt)

/-- What each condition code tests (R33). -/
def Obligations.ConditionCodes : Prop :=
  ∀ s : State,
    let cond (code : BitVec 4) : Bool := s.holds (Cond.ofCode code)
    let f := s.flags
    (cond 0 = true ↔ f.c = true) ∧ (cond 1 = true ↔ f.c = false) ∧
      (cond 2 = true ↔ f.c = true ∧ f.z = false) ∧ (cond 3 = true ↔ f.c = false ∨ f.z = true) ∧
      (cond 4 = true ↔ f.z = true) ∧ (cond 5 = true ↔ f.z = false) ∧
      (cond 6 = true ↔ f.z = false ∧ f.n = f.v) ∧ (cond 7 = true ↔ f.z = true ∨ f.n ≠ f.v) ∧
      (cond 8 = true ↔ f.n = f.v) ∧ (cond 9 = true ↔ f.n ≠ f.v) ∧
      (cond 10 = true ↔ f.n = true) ∧ (cond 11 = true ↔ f.n = false) ∧
      (cond 12 = true ↔ f.v = true) ∧ (cond 13 = true ↔ f.v = false) ∧
      (cond 14 = true ↔ 0 < s.cnt.toNat) ∧ cond 15 = true

/-- The logical instructions write rD, and N and Z where CU is 1; C, V, T and everything else stay; and the encoding of each (R190 to R199). -/
def Obligations.Logic : Prop :=
  ∀ (s : State) (rd ra rb : Reg) (imm16 : BitVec 16) (imm14 : BitVec 14) (cu : Bool),
    let result (r : Word) : State :=
      { s.setReg rd r with
        flags := if cu then { s.flags with n := decide (r.toInt < 0), z := decide (r.toNat = 0) } else s.flags
        pc := s.pc + 4 }
    let low : Word := BitVec.ofNat 32 imm16.toNat
    let high : Word := BitVec.ofNat 32 (imm16.toNat * 2 ^ 16)
    let imm : Word := BitVec.ofNat 32 imm14.toNat
    exec (.and rd ra rb cu) s = .next (result (s.reg ra &&& s.reg rb)) ∧
      exec (.or rd ra rb cu) s = .next (result (s.reg ra ||| s.reg rb)) ∧
      exec (.xor rd ra rb cu) s = .next (result (s.reg ra ^^^ s.reg rb)) ∧
      exec (.not rd ra cu) s = .next (result (~~~s.reg ra)) ∧
      exec (.andi rd imm16 cu) s = .next (result (s.reg rd &&& low)) ∧
      exec (.ori rd imm16 cu) s = .next (result (s.reg rd ||| low)) ∧
      exec (.andis rd imm16 cu) s = .next (result (s.reg rd &&& high)) ∧
      exec (.oris rd imm16 cu) s = .next (result (s.reg rd ||| high)) ∧
      exec (.andri rd ra imm14 cu) s = .next (result (s.reg ra &&& imm)) ∧
      exec (.orri rd ra imm14 cu) s = .next (result (s.reg ra ||| imm)) ∧
      (∀ p ∈ [(Instr.and rd ra rb cu, 0b010000#6, rb), (.or rd ra rb cu, 0b010001#6, rb),
        (.xor rd ra rb cu, 0b010011#6, rb), (.not rd ra cu, 0b010010#6, 0b00000#5)],
        p.1.effective = .long (0b00000#5 ++ rd ++ ra ++ p.2.2 ++ 0b000#3 ++ p.2.1 ++ BitVec.ofBool cu)) ∧
      (∀ p ∈ [(Instr.andi rd imm16 cu, 0b00001#5, 0b100#3), (.ori rd imm16 cu, 0b00001#5, 0b101#3),
        (.andis rd imm16 cu, 0b00101#5, 0b100#3), (.oris rd imm16 cu, 0b00101#5, 0b101#3)],
        p.1.effective = .long (p.2.1 ++ rd ++ p.2.2 ++ imm16 ++ BitVec.ofBool cu)) ∧
      (Instr.andri rd ra imm14 cu).effective = .long (0b01100#5 ++ rd ++ ra ++ imm14 ++ BitVec.ofBool cu) ∧
      (Instr.orri rd ra imm14 cu).effective = .long (0b01101#5 ++ rd ++ ra ++ imm14 ++ BitVec.ofBool cu)

/-- The bit tests, the immediate loads and the register moves of the 16-bit set (R203 to R205, R439, R448 to R451). -/
def Obligations.BitTestsAndMoves : Prop :=
  ∀ (s : State) (rd ra : Reg) (bn : BitVec 5) (imm : BitVec 16) (d a : G0) (imm8 : BitVec 8),
    let tested (v : Word) (len : Word) : State :=
      { s with
        flags := { s.flags with n := decide (v.toInt < 0), z := decide (v.toNat / 2 ^ bn.toNat % 2 = 0) }
        pc := s.pc + len }
    let low (r : G0) : Reg := r.setWidth 5
    let high (r : G0) : Reg := r.setWidth 5 + 16
    exec (.bittst ra bn) s = .next (tested (s.reg ra) 4) ∧
      exec (.bittst16 d bn) s = .next (tested (s.reg (low d)) 2) ∧
      exec (.ldi rd imm) s = .next { s.setReg rd (BitVec.ofInt 32 imm.toInt) with pc := s.pc + 4 } ∧
      exec (.ldis rd imm) s = .next { s.setReg rd (BitVec.ofNat 32 (imm.toNat * 2 ^ 16)) with pc := s.pc + 4 } ∧
      exec (.ldiu16 d imm8) s =
        .next { s.setReg (low d) (BitVec.ofNat 32 imm8.toNat) with pc := s.pc + 2 } ∧
      exec (.mv16 d a) s =
        .next { s.setReg (low d) (s.reg (low a)) with pc := s.pc + 2 } ∧
      exec (.mlfh16 d a) s =
        .next { s.setReg (low d) (s.reg (high a)) with pc := s.pc + 2 } ∧
      exec (.mhfl16 d a) s =
        .next { s.setReg (high d) (s.reg (low a)) with pc := s.pc + 2 }

/-! ## Shifts, rotates, extends (41_shift_rotate_extend_32.md) -/

/-- The shifts: the result, N and Z of it, and C the last bit shifted out; for amount 0 the result is the operand and C is UNDEFINED (R230 to R236). It rests also on decisions D19 of 92_eei_decisions.md, which the spec marks as its own; and on log 10. -/
def Obligations.Shifts : Prop :=
  ∀ (s : State) (rd ra rb : Reg) (sa : BitVec 5) (cu : Bool),
    let a := s.reg ra
    let m := (s.reg rb).toNat % 32
    let does (i : Instr) (r : Word) (out : Option Bool) : Prop :=
      ∃ c k, exec i s = .next
        { s.setReg rd r with
          flags := if cu then
            { s.flags with n := decide (r.toInt < 0), z := decide (r.toNat = 0), c := out.getD c } else s.flags
          pc := s.pc + 4, free := k }
    let left (n : Nat) : Option Bool := if n = 0 then none else some (a.getLsbD (32 - n))
    let right (n : Nat) : Option Bool := if n = 0 then none else some (a.getLsbD (n - 1))
    does (.sll rd ra rb cu) (BitVec.ofNat 32 (a.toNat * 2 ^ m)) (left m) ∧
      does (.slli rd ra sa cu) (BitVec.ofNat 32 (a.toNat * 2 ^ sa.toNat)) (left sa.toNat) ∧
      does (.srl rd ra rb cu) (BitVec.ofNat 32 (a.toNat / 2 ^ m)) (right m) ∧
      does (.srli rd ra sa cu) (BitVec.ofNat 32 (a.toNat / 2 ^ sa.toNat)) (right sa.toNat) ∧
      does (.sra rd ra rb cu) (BitVec.ofInt 32 (a.toInt / 2 ^ m)) (right m) ∧
      does (.srai rd ra sa cu) (BitVec.ofInt 32 (a.toInt / 2 ^ sa.toNat)) (right sa.toNat)

/-- The plain rotates: every bit goes where the rotation takes it; with CU, C is the last bit rotated (for amount 0 UNDEFINED) and N and Z are UNDEFINED; V and T stay (R236, R238 to R241). It rests also on decisions D19, D29 of 92_eei_decisions.md, which the spec marks as its own; and on log 10. -/
def Obligations.PlainRotates : Prop :=
  ∀ (s : State) (rd ra rb : Reg) (sa : BitVec 5) (cu : Bool),
    let a := s.reg ra
    let m := (s.reg rb).toNat % 32
    let does (i : Instr) (n : Nat) (source : Nat → Nat) (out : Nat) : Prop :=
      ∃ r fn fz fc k, (∀ j < 32, r.getLsbD j = a.getLsbD (source j % 32)) ∧ (0 < n → fc = r.getLsbD out) ∧
        exec i s = .next
          { s.setReg rd r with
            flags := if cu then { s.flags with n := fn, z := fz, c := fc } else s.flags
            pc := s.pc + 4, free := k }
    does (.rol rd ra rb cu) m (fun j => j + 32 - m) 0 ∧
      does (.roli rd ra sa cu) sa.toNat (fun j => j + 32 - sa.toNat) 0 ∧
      does (.ror rd ra rb cu) m (fun j => j + m) 31 ∧
      does (.rori rd ra sa cu) sa.toNat (fun j => j + sa.toNat) 31

/-- The carry rotates rotate the 33-bit chain of C and rA; N is bit 31 of the result, Z, V and T stay (R242 to R245). It rests also on decisions D29 of 92_eei_decisions.md, which the spec marks as its own. -/
def Obligations.CarryRotates : Prop :=
  ∀ (s : State) (rd ra rb : Reg) (sa : BitVec 5),
    let m := (s.reg rb).toNat % 32
    let chain (c : Bool) (v : Word) (j : Nat) : Bool := if j = 32 then c else v.getLsbD j
    let does (i : Instr) (source : Nat → Nat) : Prop :=
      ∃ r c, (∀ j < 33, chain c r j = chain s.flags.c (s.reg ra) (source j % 33)) ∧
        exec i s = .next
          { s.setReg rd r with
            flags := { s.flags with n := decide (r.toInt < 0), c := c }
            pc := s.pc + 4 }
    does (.rorc rd ra rb) (fun j => j + m) ∧ does (.roric rd ra sa) (fun j => j + sa.toNat) ∧
      does (.rolc rd ra rb) (fun j => j + 33 - m) ∧ does (.rolic rd ra sa) (fun j => j + 33 - sa.toNat)

/-- `rolic.c` undoes `roric.c`: the register and C come back (R242 to R245). It rests also on decisions D29 of 92_eei_decisions.md, which the spec marks as its own. -/
def Obligations.CarryRotatesCancel : Prop :=
  ∀ (s : State) (rd ra : Reg) (sa : BitVec 5),
    ∃ t u, exec (.roric rd ra sa) s = .next t ∧ exec (.rolic rd rd sa) t = .next u ∧
      u.reg rd = s.reg ra ∧ u.flags.c = s.flags.c ∧ u.flags.z = s.flags.z ∧ ∀ q, q ≠ rd → u.reg q = s.reg q

/-- The extends: the value of the low byte or half-word, N of the result and Z UNDEFINED where CU is 1 (R246 to R249). It rests also on log 10. -/
def Obligations.Extends : Prop :=
  ∀ (s : State) (rd ra : Reg) (cu : Bool),
    let a := s.reg ra
    let does (i : Instr) (r : Word) : Prop :=
      ∃ z k, exec i s = .next
        { s.setReg rd r with
          flags := if cu then { s.flags with n := decide (r.toInt < 0), z := z } else s.flags
          pc := s.pc + 4, free := k }
    does (.extsb rd ra cu) (BitVec.ofInt 32 ((a.toInt + 2 ^ 7) % 2 ^ 8 - 2 ^ 7)) ∧
      does (.extsh rd ra cu) (BitVec.ofInt 32 ((a.toInt + 2 ^ 15) % 2 ^ 16 - 2 ^ 15)) ∧
      does (.extzb rd ra cu) (BitVec.ofNat 32 (a.toNat % 2 ^ 8)) ∧
      does (.extzh rd ra cu) (BitVec.ofNat 32 (a.toNat % 2 ^ 16))

/-! ## Branches and jumps (42_branch_jump_32.md, 45_16bit.md) -/

/-- The conditional branches, for every condition but CNZ: the target where the condition holds, else the next instruction; the link in r3 whether or not the branch is taken, and after the target is read (R271, R272, R274 to R277, R455, R456). It rests also on decisions D40 of 92_eei_decisions.md, which the spec marks as its own. -/
def Obligations.Branches : Prop :=
  ∀ (s : State) (c : Cond) (ra : Reg) (d19 : BitVec 19) (d8 : BitVec 8) (a : G0), c ≠ .cnz →
    let goes (target len : Word) : Word := if s.holds c then target else s.pc + len
    let linked : State := s.setReg 3 (s.pc + 4)
    exec (.bCond c d19) s = .next { s with pc := goes (s.pc + BitVec.ofInt 32 (2 * d19.toInt)) 4 } ∧
      exec (.bCondL c d19) s = .next { linked with pc := goes (s.pc + BitVec.ofInt 32 (2 * d19.toInt)) 4 } ∧
      exec (.brCond c ra) s = .next { s with pc := goes (s.reg ra) 4 } ∧
      exec (.brCondL c ra) s = .next { linked with pc := goes (s.reg ra) 4 } ∧
      exec (.bCond16 c d8) s = .next { s with pc := goes (s.pc + BitVec.ofInt 32 (2 * d8.toInt)) 2 } ∧
      exec (.brCond16 c a) s = .next { s with pc := goes (s.reg (g0 a)) 2 }

/-- A branch on CNZ tests CNT against 0 and then does to CNT what the launch parameter CnzSideEffect says, whose default is the model's; the targets and the link are those of the other conditions, the target read before the link (R34, R271 to R277, R455, R456). It rests also on decisions D16, D40 of 92_eei_decisions.md, which the spec marks as its own; and on log 12. -/
def Obligations.CounterBranches : Prop :=
  ∀ (s : State) (ra : Reg) (d19 : BitVec 19) (d8 : BitVec 8) (a : G0),
    let taken := decide (0 < s.cnt.toNat)
    let goes (target len : Word) : State :=
      { s with
        pc := if taken then target else s.pc + len
        cnt := match s.cfg.cnzSideEffect with
          | .none => s.cnt
          | .decIfTaken => if taken then s.cnt - 1 else s.cnt
          | .decAlways => s.cnt - 1 }
    let linked (t : State) : State := t.setReg 3 (s.pc + 4)
    exec (.bCond .cnz d19) s = .next (goes (s.pc + BitVec.ofInt 32 (2 * d19.toInt)) 4) ∧
      exec (.bCondL .cnz d19) s = .next (linked (goes (s.pc + BitVec.ofInt 32 (2 * d19.toInt)) 4)) ∧
      exec (.brCond .cnz ra) s = .next (goes (s.reg ra) 4) ∧
      exec (.brCondL .cnz ra) s = .next (linked (goes (s.reg ra) 4)) ∧
      exec (.bCond16 .cnz d8) s = .next (goes (s.pc + BitVec.ofInt 32 (2 * d8.toInt)) 2) ∧
      exec (.brCond16 .cnz a) s = .next (goes (s.reg (g0 a)) 2)

/-- The jumps are absolute inside the 32 MiB (4 KiB) region of the jump; `jl` links pc + 4, `jl!` links pc + 2 unless the launch sets Jl16LinkOffset to 4 (R278, R457, R458). It rests also on decisions D34 of 92_eei_decisions.md, which the spec marks as its own; and on log 13. -/
def Obligations.Jumps : Prop :=
  ∀ (s : State) (d24 : BitVec 24) (d11 : BitVec 11),
    let far : Word := BitVec.ofNat 32 (s.pc.toNat / 2 ^ 25 * 2 ^ 25 + 2 * d24.toNat)
    let near : Word := BitVec.ofNat 32 (s.pc.toNat / 2 ^ 12 * 2 ^ 12 + 2 * d11.toNat)
    exec (.j d24) s = .next { s with pc := far } ∧
      exec (.jl d24) s = .next { s.setReg 3 (s.pc + 4) with pc := far } ∧
      exec (.j16 d11) s = .next { s with pc := near } ∧
      exec (.jl16 d11) s =
        .next { s.setReg 3 (s.pc + if s.cfg.jl16LinkFour then 4 else 2) with pc := near }

/-- The conditional move (which does nothing for CNZ) and the two instructions that set T (R286, R288, R483). -/
def Obligations.ConditionalMoveAndTest : Prop :=
  ∀ (s : State) (c : Cond) (rd ra : Reg),
    (c ≠ .cnz → s.holds c = true →
      exec (.mvCond c rd ra) s = .next { s.setReg rd (s.reg ra) with pc := s.pc + 4 }) ∧
    (c = .cnz ∨ s.holds c = false → exec (.mvCond c rd ra) s = .next { s with pc := s.pc + 4 }) ∧
    exec (.tCond c) s = .next { s with flags := { s.flags with t := s.holds c }, pc := s.pc + 4 } ∧
    exec (.tCond16 c) s = .next { s with flags := { s.flags with t := s.holds c }, pc := s.pc + 2 }
/-! ## Loads and stores (43_load_store_32.md, 45_16bit.md) -/

/-- The loads without a base update: where the effective address is aligned and may be read, the register takes the value, extended as the mnemonic says, and nothing else changes but pc (R301 to R315, R460 to R462, R470 to R472). -/
def Obligations.Loads : Prop :=
  ∀ (s : State) (rd ra : Reg) (imm : BitVec 15) (d a : G0) (off : BitVec 5),
    let loads (i : Instr) (size : Nat) (ea : Word) (r : Reg) (v : Word) (len : Word) : Prop :=
      ea.toNat % size = 0 → s.memMap ea .load = .ok →
        exec i s = .next { s.setReg r v with pc := s.pc + len }
    let ea := s.reg ra + BitVec.ofInt 32 imm.toInt
    let ea16 := s.reg (g0 a)
    let bp (size : Nat) : Word := s.reg 2 + BitVec.ofNat 32 (size * off.toNat)
    loads (.lw rd ra imm) 4 ea rd (s.word ea) 4 ∧
      loads (.lh rd ra imm) 2 ea rd (BitVec.ofInt 32 (s.half ea).toInt) 4 ∧
      loads (.lhu rd ra imm) 2 ea rd (BitVec.ofNat 32 (s.half ea).toNat) 4 ∧
      loads (.lb rd ra imm) 1 ea rd (BitVec.ofInt 32 (s.byte ea).toInt) 4 ∧
      loads (.lbu rd ra imm) 1 ea rd (BitVec.ofNat 32 (s.byte ea).toNat) 4 ∧
      loads (.lw16 d a) 4 ea16 (g0 d) (s.word ea16) 2 ∧
      loads (.lh16 d a) 2 ea16 (g0 d) (BitVec.ofInt 32 (s.half ea16).toInt) 2 ∧
      loads (.lbu16 d a) 1 ea16 (g0 d) (BitVec.ofNat 32 (s.byte ea16).toNat) 2 ∧
      loads (.lwp16 d off) 4 (bp 4) (g0 d) (s.word (bp 4)) 2 ∧
      loads (.lhp16 d off) 2 (bp 2) (g0 d) (BitVec.ofInt 32 (s.half (bp 2)).toInt) 2 ∧
      loads (.lbup16 d off) 1 (bp 1) (g0 d) (BitVec.ofNat 32 (s.byte (bp 1)).toNat) 2

/-- The loads that update their base: pre-index reads at the new base, post-index and `pop!` at the old one; where both registers are one, it becomes UNDEFINED and nothing else is affected (R302 to R315, R326, R466). It rests also on decisions D41 of 92_eei_decisions.md, which the spec marks as its own; and on log 10. -/
def Obligations.IndexedLoads : Prop :=
  ∀ (s : State) (rd ra : Reg) (imm : BitVec 12) (d : G0) (h : Bool) (base : BitVec 3),
    let loads (i : Instr) (size : Nat) (ea : Word) (r b : Reg) (v new : Word) (len : Word) : Prop :=
      ea.toNat % size = 0 → s.memMap ea .load = .ok →
        (r ≠ b → exec i s = .next { (s.setReg r v).setReg b new with pc := s.pc + len }) ∧
        (r = b → ∃ x k, exec i s = .next { s.setReg r x with pc := s.pc + len, free := k })
    let old := s.reg ra
    let new := s.reg ra + BitVec.ofInt 32 imm.toInt
    let sb := s.reg (base.setWidth 5)
    loads (.lwPost rd ra imm) 4 old rd ra (s.word old) new 4 ∧
      loads (.lhPost rd ra imm) 2 old rd ra (BitVec.ofInt 32 (s.half old).toInt) new 4 ∧
      loads (.lhuPost rd ra imm) 2 old rd ra (BitVec.ofNat 32 (s.half old).toNat) new 4 ∧
      loads (.lbPost rd ra imm) 1 old rd ra (BitVec.ofInt 32 (s.byte old).toInt) new 4 ∧
      loads (.lbuPost rd ra imm) 1 old rd ra (BitVec.ofNat 32 (s.byte old).toNat) new 4 ∧
      loads (.lwPre rd ra imm) 4 new rd ra (s.word new) new 4 ∧
      loads (.lhPre rd ra imm) 2 new rd ra (BitVec.ofInt 32 (s.half new).toInt) new 4 ∧
      loads (.lhuPre rd ra imm) 2 new rd ra (BitVec.ofNat 32 (s.half new).toNat) new 4 ∧
      loads (.lbPre rd ra imm) 1 new rd ra (BitVec.ofInt 32 (s.byte new).toInt) new 4 ∧
      loads (.lbuPre rd ra imm) 1 new rd ra (BitVec.ofNat 32 (s.byte new).toNat) new 4 ∧
      loads (.pop16 d h base) 4 sb (gh h d) (base.setWidth 5) (s.word sb) (sb + 4) 2

/-- The stores without a base update: where the effective address is aligned and may be written, the bytes at it hold the low part of the register, every other byte reads as before, and no register changes (R316, R319, R322, R463 to R465, R473 to R475). -/
def Obligations.Stores : Prop :=
  ∀ (s : State) (rd ra : Reg) (imm : BitVec 15) (d a : G0) (off : BitVec 5), Memory.wf s.mem = true →
    let stores (i : Instr) (w : Width) (ea : Word) (v : Word) (len : Word) : Prop :=
      ea.toNat % w.bytes = 0 → s.memMap ea .store = .ok →
        ∃ t, exec i s = .next t ∧ t = { s with mem := t.mem, pc := s.pc + len } ∧
          (w = .word → t.word ea = v) ∧ (w = .half → (t.half ea).toNat = v.toNat % 2 ^ 16) ∧
          (w = .byte → (t.byte ea).toNat = v.toNat % 2 ^ 8) ∧
          ∀ x, (∀ j < w.bytes, x ≠ ea + BitVec.ofNat 32 j) → t.byte x = s.byte x
    let ea := s.reg ra + BitVec.ofInt 32 imm.toInt
    let bp (size : Nat) : Word := s.reg 2 + BitVec.ofNat 32 (size * off.toNat)
    stores (.sw rd ra imm) .word ea (s.reg rd) 4 ∧ stores (.sh rd ra imm) .half ea (s.reg rd) 4 ∧
      stores (.sb rd ra imm) .byte ea (s.reg rd) 4 ∧
      stores (.sw16 d a) .word (s.reg (g0 a)) (s.reg (g0 d)) 2 ∧
      stores (.sh16 d a) .half (s.reg (g0 a)) (s.reg (g0 d)) 2 ∧
      stores (.sb16 d a) .byte (s.reg (g0 a)) (s.reg (g0 d)) 2 ∧
      stores (.swp16 d off) .word (bp 4) (s.reg (g0 d)) 2 ∧
      stores (.shp16 d off) .half (bp 2) (s.reg (g0 d)) 2 ∧
      stores (.sbp16 d off) .byte (bp 1) (s.reg (g0 d)) 2

/-- The stores that update their base: the value and the address come from the registers as they were; pre-index and `push!` store at the new base, post-index at the old one; no other byte and no other register changes (R317 to R324, R326, R467). It rests also on decisions D41 of 92_eei_decisions.md, which the spec marks as its own. -/
def Obligations.IndexedStores : Prop :=
  ∀ (s : State) (rd ra : Reg) (imm : BitVec 12) (d : G0) (h : Bool) (base : BitVec 3), Memory.wf s.mem = true →
    let stores (i : Instr) (w : Width) (ea : Word) (v : Word) (b : Reg) (new : Word) (len : Word) : Prop :=
      ea.toNat % w.bytes = 0 → s.memMap ea .store = .ok →
        ∃ t, exec i s = .next t ∧ t = { s.setReg b new with mem := t.mem, pc := s.pc + len } ∧
          (w = .word → t.word ea = v) ∧ (w = .half → (t.half ea).toNat = v.toNat % 2 ^ 16) ∧
          (w = .byte → (t.byte ea).toNat = v.toNat % 2 ^ 8) ∧
          ∀ x, (∀ j < w.bytes, x ≠ ea + BitVec.ofNat 32 j) → t.byte x = s.byte x
    let old := s.reg ra
    let new := s.reg ra + BitVec.ofInt 32 imm.toInt
    let pushed := s.reg (base.setWidth 5) - 4
    stores (.swPost rd ra imm) .word old (s.reg rd) ra new 4 ∧
      stores (.shPost rd ra imm) .half old (s.reg rd) ra new 4 ∧
      stores (.sbPost rd ra imm) .byte old (s.reg rd) ra new 4 ∧
      stores (.swPre rd ra imm) .word new (s.reg rd) ra new 4 ∧
      stores (.shPre rd ra imm) .half new (s.reg rd) ra new 4 ∧
      stores (.sbPre rd ra imm) .byte new (s.reg rd) ra new 4 ∧
      stores (.push16 d h base) .word pushed (s.reg (gh h d)) (base.setWidth 5) pushed 2

/-- A load that is misaligned raises AdEL-data, else one that MemMap forbids raises AdEL-data or BusErr-Data; EPC is the load, EMA the effective address, and nothing is written, the base register neither. For every kind of access MemMap answers what the first region says that fits the address, the kind and the mode, which is Debug where DM is 1, else User or Kernel by UMc; where none fits it answers ok (R85, R90, R106, R300, R710). It rests also on decisions D3, D5, D22 of 92_eei_decisions.md, which the spec marks as its own; and on log 27, 43. -/
def Obligations.LoadExceptions : Prop :=
  ∀ (s : State) (rd ra : Reg) (i15 : BitVec 15) (i12 : BitVec 12) (d a : G0) (off : BitVec 5) (h : Bool)
    (base : BitVec 3),
    let ea := s.reg ra + BitVec.ofInt 32 i15.toInt
    let old := s.reg ra
    let new := s.reg ra + BitVec.ofInt 32 i12.toInt
    let bp (size : Nat) : Word := s.reg 2 + BitVec.ofNat 32 (size * off.toNat)
    let words : List (Instr × Word) := [(.lw rd ra i15, ea), (.lwPost rd ra i12, old), (.lwPre rd ra i12, new),
      (.lw16 d a, s.reg (g0 a)), (.lwp16 d off, bp 4), (.pop16 d h base, s.reg (base.setWidth 5))]
    let halves : List (Instr × Word) := [(.lh rd ra i15, ea), (.lhPost rd ra i12, old), (.lhPre rd ra i12, new),
      (.lhu rd ra i15, ea), (.lhuPost rd ra i12, old), (.lhuPre rd ra i12, new), (.lh16 d a, s.reg (g0 a)),
      (.lhp16 d off, bp 2)]
    let bytes : List (Instr × Word) := [(.lb rd ra i15, ea), (.lbPost rd ra i12, old), (.lbPre rd ra i12, new),
      (.lbu rd ra i15, ea), (.lbuPost rd ra i12, old), (.lbuPre rd ra i12, new), (.lbu16 d a, s.reg (g0 a)),
      (.lbup16 d off, bp 1)]
    let raises (size : Nat) (p : Instr × Word) : Prop :=
      (p.2.toNat % size ≠ 0 → exec p.1 s = .next (s.enter .adelData s.pc (some p.2))) ∧
      (p.2.toNat % size = 0 → s.memMap p.2 .load = .addressError →
        exec p.1 s = .next (s.enter .adelData s.pc (some p.2))) ∧
      (p.2.toNat % size = 0 → s.memMap p.2 .load = .busError →
        exec p.1 s = .next (s.enter .busErrData s.pc (some p.2)))
    let fits (r : MapRule) (x : Word) (k : AccessKind) : Prop :=
      r.lo.toNat ≤ x.toNat ∧ x.toNat ≤ r.hi.toNat ∧ r.kind = k ∧
        r.mode = if s.dreg.dm = true then .debug else if s.psr.umc = true then .user else .kernel
    (∀ p ∈ words, raises 4 p) ∧ (∀ p ∈ halves, raises 2 p) ∧ (∀ p ∈ bytes, raises 1 p) ∧
      ∀ (x : Word) (k : AccessKind),
        (∀ pre r post, s.cfg.memMap = pre ++ r :: post → (∀ q ∈ pre, ¬fits q x k) → fits r x k →
          s.memMap x k = r.verdict) ∧
        ((∀ q ∈ s.cfg.memMap, ¬fits q x k) → s.memMap x k = .ok)

/-- A store that is misaligned raises AdES, else one that MemMap forbids raises AdES or BusErr-Data; EPC is the store, EMA the effective address, and nothing is written, neither memory nor the base register (R85, R90, R300). It rests also on decisions D3, D5 of 92_eei_decisions.md, which the spec marks as its own. -/
def Obligations.StoreExceptions : Prop :=
  ∀ (s : State) (rd ra : Reg) (i15 : BitVec 15) (i12 : BitVec 12) (d a : G0) (off : BitVec 5) (h : Bool)
    (base : BitVec 3),
    let ea := s.reg ra + BitVec.ofInt 32 i15.toInt
    let old := s.reg ra
    let new := s.reg ra + BitVec.ofInt 32 i12.toInt
    let bp (size : Nat) : Word := s.reg 2 + BitVec.ofNat 32 (size * off.toNat)
    let words : List (Instr × Word) := [(.sw rd ra i15, ea), (.swPost rd ra i12, old), (.swPre rd ra i12, new),
      (.sw16 d a, s.reg (g0 a)), (.swp16 d off, bp 4), (.push16 d h base, s.reg (base.setWidth 5) - 4)]
    let halves : List (Instr × Word) := [(.sh rd ra i15, ea), (.shPost rd ra i12, old), (.shPre rd ra i12, new),
      (.sh16 d a, s.reg (g0 a)), (.shp16 d off, bp 2)]
    let bytes : List (Instr × Word) := [(.sb rd ra i15, ea), (.sbPost rd ra i12, old), (.sbPre rd ra i12, new),
      (.sb16 d a, s.reg (g0 a)), (.sbp16 d off, bp 1)]
    let raises (size : Nat) (p : Instr × Word) : Prop :=
      (p.2.toNat % size ≠ 0 → exec p.1 s = .next (s.enter .ades s.pc (some p.2))) ∧
      (p.2.toNat % size = 0 → s.memMap p.2 .store = .addressError →
        exec p.1 s = .next (s.enter .ades s.pc (some p.2))) ∧
      (p.2.toNat % size = 0 → s.memMap p.2 .store = .busError →
        exec p.1 s = .next (s.enter .busErrData s.pc (some p.2)))
    (∀ p ∈ words, raises 4 p) ∧ (∀ p ∈ halves, raises 2 p) ∧ ∀ p ∈ bytes, raises 1 p

/-! ## Load-combine and store-combine (43_load_store_32.md section 4) -/

/-- `lcb`, `lcw`, `lce` in big endian: the merged register, LCR and the base; no alignment exception; `lce` at an aligned address reads no memory (R330 to R333). It rests also on decisions D39, D41 of 92_eei_decisions.md, which the spec marks as its own; and on log 10. -/
def Obligations.CombineLoads : Prop :=
  ∀ (s : State) (rd ra : Reg), s.cfg.littleEndian = false →
    let a := s.reg ra
    let n := a.toNat % 4
    let wa : Word := a - BitVec.ofNat 32 n
    let m := s.word wa
    let merged : Word := if n = 0 then s.lcr else s.lcr <<< (8 * n) ||| m >>> (32 - 8 * n)
    let writes (i : Instr) (v lcr : Word) : Prop :=
      (rd ≠ ra → exec i s = .next { (s.setReg rd v).setReg ra (a + 4) with lcr := lcr, pc := s.pc + 4 }) ∧
      (rd = ra → ∃ x k, exec i s = .next { s.setReg rd x with lcr := lcr, pc := s.pc + 4, free := k })
    (s.memMap wa .load = .ok →
      exec (.lcb ra) s = .next { s.setReg ra (a + 4) with lcr := m, pc := s.pc + 4 } ∧
        writes (.lcw rd ra) merged m ∧ (n ≠ 0 → writes (.lce rd ra) merged m)) ∧
    (n = 0 → writes (.lce rd ra) s.lcr s.lcr)

/-- `scb`, `scw`, `sce` in big endian: the bytes stored, SCR and the base; every other byte reads as before; no alignment exception; `sce` at an aligned address stores nothing (R330, R334 to R336). It rests also on decisions D39 of 92_eei_decisions.md, which the spec marks as its own. -/
def Obligations.CombineStores : Prop :=
  ∀ (s : State) (rd ra : Reg), s.cfg.littleEndian = false → Memory.wf s.mem = true →
    let a := s.reg ra
    let v := s.reg rd
    let n := a.toNat % 4
    let wa : Word := a - BitVec.ofNat 32 n
    let byteOf (x : Word) (j : Nat) : Byte := x.extractLsb' (24 - 8 * j) 8
    let rest : Word := v.rotateRight (8 * n)
    let stores (i : Instr) (at_ : Word) (count : Nat) (x : Word) (scr : Word) : Prop :=
      ∃ t, exec i s = .next t ∧
        t = { s.setReg ra (a + 4) with mem := t.mem, scr := scr, pc := s.pc + 4 } ∧
        (∀ j < count, t.byte (at_ + BitVec.ofNat 32 j) = byteOf x j) ∧
        ∀ y, (∀ j < count, y ≠ at_ + BitVec.ofNat 32 j) → t.byte y = s.byte y
    (s.memMap a .store = .ok → stores (.scb rd ra) a (4 - n) v rest) ∧
    (s.memMap wa .store = .ok →
      stores (.scw rd ra) wa 4 (if n = 0 then v else s.scr >>> (32 - 8 * n) <<< (32 - 8 * n) ||| v >>> (8 * n)) rest ∧
        (n ≠ 0 → stores (.sce ra) wa n s.scr s.scr)) ∧
    (n = 0 → stores (.sce ra) wa 0 s.scr s.scr)

/-- `lcb` then `lce` load the big-endian word at any address, aligned or not, and leave the base 8 further; the second word is asked for only where the address is not aligned (R331, R333, R338). It rests also on decisions D39 of 92_eei_decisions.md, which the spec marks as its own. -/
def Obligations.UnalignedLoad : Prop :=
  ∀ (s : State) (rd ra : Reg), s.cfg.littleEndian = false → rd ≠ ra →
    let a := s.reg ra
    let wa : Word := a - BitVec.ofNat 32 (a.toNat % 4)
    s.memMap wa .load = .ok → (a.toNat % 4 ≠ 0 → s.memMap (wa + 4) .load = .ok) →
    ∃ t u, exec (.lcb ra) s = .next t ∧ exec (.lce rd ra) t = .next u ∧
      u.reg rd = s.word a ∧ u.reg ra = a + 8 ∧ u.mem = s.mem ∧ u.pc = s.pc + 8

/-- `scb` then `sce` store a register as the big-endian word at any address, aligned or not, change no other byte, and leave the base 8 further; the second word is asked for only where the address is not aligned (R334, R336, R338). It rests also on decisions D39 of 92_eei_decisions.md, which the spec marks as its own. -/
def Obligations.UnalignedStore : Prop :=
  ∀ (s : State) (rd ra : Reg), s.cfg.littleEndian = false → Memory.wf s.mem = true →
    let a := s.reg ra
    let wa : Word := a - BitVec.ofNat 32 (a.toNat % 4)
    s.memMap a .store = .ok → (a.toNat % 4 ≠ 0 → s.memMap (wa + 4) .store = .ok) →
    ∃ t u, exec (.scb rd ra) s = .next t ∧ exec (.sce ra) t = .next u ∧
      u.word a = s.reg rd ∧ (∀ x, (∀ j < 4, x ≠ a + BitVec.ofNat 32 j) → u.byte x = s.byte x) ∧
      u.reg ra = a + 8 ∧ u.pc = s.pc + 8

/-- In little endian the six combine instructions are refused, by name (R337). It rests also on decisions D39 of 92_eei_decisions.md, which the spec marks as its own. -/
def Obligations.CombineRefusedInLittleEndian : Prop :=
  ∀ (s : State) (rd ra : Reg), s.cfg.littleEndian = true →
    ∀ i ∈ [Instr.lcb ra, .lcw rd ra, .lce rd ra, .scb rd ra, .scw rd ra, .sce ra],
      exec i s = .refused .littleEndianCombine

/-- Where MemMap forbids what `lcb`, `lcw`, `lce`, `scb`, `scw`, `sce` (in big endian) or, in either byte order, a usable `ldc`, `stc` accesses, the access exception is raised, with EPC the instruction and EMA the address of the access, and no register, special register or byte of memory changes (R90, R300, R331 to R336, R390, R391). It rests also on decisions D3, D5 of 92_eei_decisions.md, which the spec marks as its own. -/
def Obligations.CombineAndCoprocessorExceptions : Prop :=
  ∀ (s : State) (rd ra : Reg) (n : BitVec 2) (cra : BitVec 5) (imm : BitVec 10),
    let a := s.reg ra
    let wa : Word := a - BitVec.ofNat 32 (a.toNat % 4)
    let ea := s.reg rd + BitVec.ofInt 32 (4 * imm.toInt)
    let raises (i : Instr) (k : AccessKind) (x : Word) : Prop :=
      (s.memMap x k = .addressError →
        exec i s = .next (s.enter (if k = .load then .adelData else .ades) s.pc (some x))) ∧
      (s.memMap x k = .busError → exec i s = .next (s.enter .busErrData s.pc (some x)))
    (s.cfg.littleEndian = false →
      raises (.lcb ra) .load wa ∧ raises (.lcw rd ra) .load wa ∧ raises (.scb rd ra) .store a ∧
        raises (.scw rd ra) .store wa ∧
        (a.toNat % 4 ≠ 0 → raises (.lce rd ra) .load wa ∧ raises (.sce ra) .store wa)) ∧
      (n ≠ 0 → s.copUsable n = true → s.copPresent n = true → ea.toNat % 4 = 0 →
        raises (.ldc n rd cra imm) .load ea ∧ raises (.stc n rd cra imm) .store ea)

/-! ## cache, pflush and the empty instructions -/

/-- `nop`, `nop!`, `pflush` and every defined `cache` operation only advance pc; an undefined one raises RI; one that reads memory raises BusErr-Data, precisely, where the bus answers with an error (R343 to R346, R410, R481). It rests also on decisions D27, D32 of 92_eei_decisions.md, which the spec marks as its own; and on log 23. -/
def Obligations.CacheAndNops : Prop :=
  ∀ (s : State) (op : BitVec 5) (ra : Reg) (imm : BitVec 15),
    let ea := s.reg ra + BitVec.ofInt 32 imm.toInt
    let undefined := op.toNat ∈ [0x05, 0x06, 0x07, 0x0F, 0x12, 0x13, 0x14, 0x15, 0x16, 0x17, 0x19, 0x1C]
    let reads := op.toNat ∈ [0x00, 0x01, 0x03, 0x08, 0x09, 0x0B]
    exec .nop s = .next { s with pc := s.pc + 4 } ∧ exec .pflush s = .next { s with pc := s.pc + 4 } ∧
      exec .nop16 s = .next { s with pc := s.pc + 2 } ∧
      (undefined → exec (.cache op ra imm) s = .next (s.enter .ri s.pc none)) ∧
      (reads → s.memMap ea .load = .busError →
        exec (.cache op ra imm) s = .next (s.enter .busErrData s.pc (some ea))) ∧
      (¬undefined → ¬(reads ∧ s.memMap ea .load = .busError) →
        exec (.cache op ra imm) s = .next { s with pc := s.pc + 4 })

/-! ## Multiplication, division, accumulation (44, 47) -/

/-- The 64-bit products and accumulations: `{CEH, CEL}` takes the exact value modulo 2^64, signed, unsigned or fractional; nothing else changes (R361, R362, R545 to R551). It rests also on decisions D24, D25 of 92_eei_decisions.md, which the spec marks as its own; and on log 14. -/
def Obligations.Accumulations : Prop :=
  ∀ (s : State) (ra rb : Reg),
    let p : Int := (s.reg ra).toInt * (s.reg rb).toInt
    let u : Int := (s.reg ra).toNat * (s.reg rb).toNat
    let f : Int := if s.cfg.fractionalShift then 2 * p else p
    let acc : Int := (s.ceh.toNat * 2 ^ 32 + s.cel.toNat : Nat)
    let gives (i : Instr) (v : Int) : Prop :=
      ∃ h l : Word, ((h.toNat * 2 ^ 32 + l.toNat : Nat) : Int) = v % 2 ^ 64 ∧
        exec i s = .next { s with ceh := h, cel := l, pc := s.pc + 4 }
    gives (.mul ra rb) p ∧ gives (.mulu ra rb) u ∧ gives (.mulF ra rb) f ∧
      gives (.mad ra rb) (acc + p) ∧ gives (.madu ra rb) (acc + u) ∧ gives (.madF ra rb) (acc + f) ∧
      gives (.msb ra rb) (acc - p) ∧ gives (.msbu ra rb) (acc - u) ∧ gives (.msbF ra rb) (acc - f)

/-- Division: dividend = divisor * CEL + CEH with the remainder smaller than the divisor, the signed quotient truncated toward zero; by zero CEH and CEL are UNDEFINED and CeE is raised; -2^31 / -1 leaves them UNDEFINED without an exception (R363 to R365). It rests also on decisions D17, D42 of 92_eei_decisions.md, which the spec marks as its own; and on log 10, 29. -/
def Obligations.Divisions : Prop :=
  ∀ (s : State) (ra rb : Reg),
    let a := s.reg ra
    let b := s.reg rb
    let overflows := a.toInt = -2 ^ 31 ∧ b.toInt = -1
    (b ≠ 0 → ¬overflows → ∃ q r : Word,
      a.toInt = b.toInt * q.toInt + r.toInt ∧ r.toInt.natAbs < b.toInt.natAbs ∧
        (0 ≤ a.toInt → 0 ≤ r.toInt) ∧ (a.toInt ≤ 0 → r.toInt ≤ 0) ∧
        exec (.div ra rb) s = .next { s with cel := q, ceh := r, pc := s.pc + 4 }) ∧
    (overflows → ∃ q r k, exec (.div ra rb) s = .next { s with cel := q, ceh := r, pc := s.pc + 4, free := k }) ∧
    (b ≠ 0 → ∃ q r : Word, a.toNat = b.toNat * q.toNat + r.toNat ∧ r.toNat < b.toNat ∧
      exec (.divu ra rb) s = .next { s with cel := q, ceh := r, pc := s.pc + 4 }) ∧
    (b = 0 → ∀ i ∈ [Instr.div ra rb, .divu ra rb],
      ∃ q r k, exec i s = .next ({ s with cel := q, ceh := r, free := k }.enter .cee s.pc none))

/-- The 16-bit by 16-bit accumulations: the `l` forms take the lower halves and write CEL only, the `h` forms the upper halves and CEH only; `.f` doubles the product (FractionalShift), `.fs` clamps, the others wrap (R544, R555 to R572). It rests also on decisions D24, D25 of 92_eei_decisions.md, which the spec marks as its own; and on log 14. -/
def Obligations.HalfAccumulations : Prop :=
  ∀ (s : State) (ra rb : Reg),
    let fr (x : Int) : Int := if s.cfg.fractionalShift then 2 * x else x
    let p : Int := (BitVec.ofNat 16 (s.reg ra).toNat).toInt * (BitVec.ofNat 16 (s.reg rb).toNat).toInt
    let q : Int := (BitVec.ofNat 16 ((s.reg ra).toNat / 2 ^ 16)).toInt *
      (BitVec.ofNat 16 ((s.reg rb).toNat / 2 ^ 16)).toInt
    let low (i : Instr) (v : Int) : Prop := ∃ l, l = BitVec.ofInt 32 v ∧
      exec i s = .next { s with cel := l, pc := s.pc + 4 }
    let high (i : Instr) (v : Int) : Prop := ∃ h, h = BitVec.ofInt 32 v ∧
      exec i s = .next { s with ceh := h, pc := s.pc + 4 }
    let clamped (v : Int) : Int := Max.max (-2 ^ 31) (Min.min (2 ^ 31 - 1) v)
    low (.mazl ra rb) p ∧ low (.mazlF ra rb) (fr p) ∧ low (.madl ra rb) (s.cel.toInt + p) ∧
      low (.madlFs ra rb) (clamped (s.cel.toInt + fr p)) ∧ low (.mszl ra rb) (-p) ∧
      low (.mszlF ra rb) (-fr p) ∧ low (.msbl ra rb) (s.cel.toInt - p) ∧
      low (.msblFs ra rb) (clamped (s.cel.toInt - fr p)) ∧
      high (.mazh ra rb) q ∧ high (.mazhF ra rb) (fr q) ∧ high (.madh ra rb) (s.ceh.toInt + q) ∧
      high (.madhFs ra rb) (clamped (s.ceh.toInt + fr q)) ∧ high (.mszh ra rb) (-q) ∧
      high (.mszhF ra rb) (-fr q) ∧ high (.msbh ra rb) (s.ceh.toInt - q) ∧
      high (.msbhFs ra rb) (clamped (s.ceh.toInt - fr q))

/-- Minimum, maximum, absolute value and the clamping forms, as signed integers (R573 to R578, R580). It rests also on decisions D24, D43 of 92_eei_decisions.md, which the spec marks as its own. -/
def Obligations.SaturatingInstructions : Prop :=
  ∀ (s : State) (rd ra rb : Reg),
    let a := (s.reg ra).toInt
    let b := (s.reg rb).toInt
    let clamped (v : Int) : Int := Max.max (-2 ^ 31) (Min.min (2 ^ 31 - 1) v)
    let gives (i : Instr) (v : Int) : Prop :=
      ∃ r : Word, r.toInt = v ∧ exec i s = .next { s.setReg rd r with pc := s.pc + 4 }
    gives (.min rd ra rb) (Min.min a b) ∧ gives (.max rd ra rb) (Max.max a b) ∧
      gives (.addS rd ra rb) (clamped (a + b)) ∧ gives (.subS rd ra rb) (clamped (a - b)) ∧
      gives (.abs rd ra) (if a = -2 ^ 31 then a else |a|) ∧ gives (.absS rd ra) (clamped |a|) ∧
      gives (.sllS rd ra rb) (clamped (a * 2 ^ ((s.reg rb).toNat % 32)))

/-- `clz` counts the zero bits above the highest one (32 for 0); `bitrev` reverses the bits and shifts right, by nothing where its third operand is r0 (R579, R596). It rests also on decisions D26 of 92_eei_decisions.md, which the spec marks as its own. -/
def Obligations.BitCounting : Prop :=
  ∀ (s : State) (rd ra rb : Reg),
    let a := s.reg ra
    (∃ r : Word, r.toNat ≤ 32 ∧ (∀ j < r.toNat, a.getLsbD (31 - j) = false) ∧
      (r.toNat < 32 → a.getLsbD (31 - r.toNat) = true) ∧
      exec (.clz rd ra) s = .next { s.setReg rd r with pc := s.pc + 4 }) ∧
    (∃ r : Word, (∀ j < 32, r.getLsbD j =
        (let k := j + if rb = 0 then 0 else (s.reg rb).toNat % 32
         if k < 32 then a.getLsbD (31 - k) else false)) ∧
      exec (.bitrev rd ra rb) s = .next { s.setReg rd r with pc := s.pc + 4 })

/-! ## Moves, custom engine, coprocessors (44_system_cop_ce_32.md) -/

/-- The moves to and from CEH, CEL and the special registers; a register written twice, and the forms with HI = LO = 0, leave UNDEFINED values (R370 to R381). It rests also on decisions D33, D41 of 92_eei_decisions.md, which the spec marks as its own; and on log 10. -/
def Obligations.CustomEngineMoves : Prop :=
  ∀ (s : State) (rd ra : Reg),
    let at4 (t : State) : State := { t with pc := s.pc + 4 }
    exec (.mfcel rd) s = .next (at4 (s.setReg rd s.cel)) ∧ exec (.mfceh rd) s = .next (at4 (s.setReg rd s.ceh)) ∧
      (rd ≠ ra → exec (.mfcehl rd ra) s = .next (at4 ((s.setReg rd s.ceh).setReg ra s.cel))) ∧
      (rd = ra → ∃ x k, exec (.mfcehl rd ra) s = .next { at4 (s.setReg rd x) with free := k }) ∧
      (∃ x k, exec (.mfcex0 rd) s = .next { at4 (s.setReg rd x) with free := k }) ∧
      exec (.mtcel rd) s = .next (at4 { s with cel := s.reg rd }) ∧
      exec (.mtceh rd) s = .next (at4 { s with ceh := s.reg rd }) ∧
      exec (.mtcehl rd ra) s = .next (at4 { s with ceh := s.reg rd, cel := s.reg ra }) ∧
      (∃ h l k, exec (.mtcex0 rd) s = .next (at4 { s with ceh := h, cel := l, free := k })) ∧
      exec (.mfsr rd 0) s = .next (at4 (s.setReg rd s.cnt)) ∧ exec (.mfsr rd 1) s = .next (at4 (s.setReg rd s.lcr)) ∧
      exec (.mfsr rd 2) s = .next (at4 (s.setReg rd s.scr)) ∧
      exec (.mtsr ra 0) s = .next (at4 { s with cnt := s.reg ra }) ∧
      exec (.mtsr ra 1) s = .next (at4 { s with lcr := s.reg ra }) ∧
      exec (.mtsr ra 2) s = .next (at4 { s with scr := s.reg ra })

/-- `ceinst`: RI where the custom engine does not implement the function, else what CeInstStep says of CEH, CEL and the registers named by USD1 and USD2, and CeE where it raises (R395; the shape of CeInstStep's answer is the model's, log 25). It rests also on decisions D15 of 92_eei_decisions.md, which the spec marks as its own; and on log 44. -/
def Obligations.CustomEngineFunction : Prop :=
  ∀ (s : State) (func5 : BitVec 5) (ra rb : Reg) (usd1 usd2 : BitVec 5),
    let r := Config.ceInstStep func5 (s.reg ra) (s.reg rb) usd1 usd2 s.ceh s.cel
    let given (t : State) (usd : BitVec 5) (v : Option Word) : State :=
      match v with
      | some x => t.setReg usd x
      | none => t
    let t := given (given { s with ceh := r.ceh, cel := r.cel } usd1 r.usd1) usd2 r.usd2
    (s.cfg.ceImplemented.getLsbD func5.toNat = false →
      exec (.ceinst func5 ra rb usd1 usd2) s = .next (s.enter .ri s.pc none)) ∧
    (s.cfg.ceImplemented.getLsbD func5.toNat = true →
      exec (.ceinst func5 ra rb usd1 usd2) s =
        .next (if r.raises then t.enter .cee s.pc none else { t with pc := s.pc + 4 }))

/-- The coprocessor instructions: CCU without the CU bit, in every mode; RI where no coprocessor answers; else their effect on the coprocessor's registers, the general register or memory (R385 to R392). It rests also on decisions D14 of 92_eei_decisions.md, which the spec marks as its own; and on log 24, 40. -/
def Obligations.Coprocessors : Prop :=
  ∀ (s : State) (n : BitVec 2) (rd : Reg) (cra : BitVec 5) (imm : BitVec 10) (code : BitVec 20), n ≠ 0 →
    let cu := if n = 1 then s.psr.cu1 else if n = 2 then s.psr.cu2 else s.psr.cu3
    let has := if n = 1 then s.cfg.hasCop1 else if n = 2 then s.cfg.hasCop2 else s.cfg.hasCop3
    let file := if n = 1 then s.cop1 else if n = 2 then s.cop2 else s.cop3
    let put (f : CopFile) : State := if n = 1 then { s with cop1 := f } else if n = 2 then { s with cop2 := f }
      else { s with cop3 := f }
    let ea := s.reg rd + BitVec.ofInt 32 (4 * imm.toInt)
    let r := Config.copStep n code file
    let all := [Instr.mtc n rd cra, .mfc n rd cra, .mtcc n rd cra, .mfcc n rd cra, .ldc n rd cra imm,
      .stc n rd cra imm, .cop n code]
    (cu = false → ∀ i ∈ all, exec i s = .next (s.enter .ccu s.pc none)) ∧
    (cu = true → has = false → ∀ i ∈ all, exec i s = .next (s.enter .ri s.pc none)) ∧
    (cu = true → has = true →
      exec (.mtc n rd cra) s =
        .next { put { file with data := fileSet file.data cra (s.reg rd) } with pc := s.pc + 4 } ∧
      exec (.mfc n rd cra) s = .next { s.setReg rd (fileGet file.data cra) with pc := s.pc + 4 } ∧
      exec (.mtcc n rd cra) s =
        .next { put { file with ctrl := fileSet file.ctrl cra (s.reg rd) } with pc := s.pc + 4 } ∧
      exec (.mfcc n rd cra) s = .next { s.setReg rd (fileGet file.ctrl cra) with pc := s.pc + 4 } ∧
      exec (.cop n code) s = .next (if r.2 then (put r.1).enter .cpe s.pc none else { put r.1 with pc := s.pc + 4 }) ∧
      (ea.toNat % 4 = 0 → s.memMap ea .load = .ok →
        exec (.ldc n rd cra imm) s =
          .next { put { file with data := fileSet file.data cra (s.word ea) } with pc := s.pc + 4 }) ∧
      (ea.toNat % 4 = 0 → s.memMap ea .store = .ok → Memory.wf s.mem = true →
        ∃ t, exec (.stc n rd cra imm) s = .next t ∧ t = { s with mem := t.mem, pc := s.pc + 4 } ∧
          t.word ea = fileGet file.data cra ∧
          ∀ x, (∀ j < 4, x ≠ ea + BitVec.ofNat 32 j) → t.byte x = s.byte x) ∧
      (ea.toNat % 4 ≠ 0 →
        exec (.ldc n rd cra imm) s = .next (s.enter .adelData s.pc (some ea)) ∧
          exec (.stc n rd cra imm) s = .next (s.enter .ades s.pc (some ea))))

/-! ## System instructions (44_system_cop_ce_32.md section 8) -/

/-- `syscall` enters the Syscall exception; where they are privileged, `trap{cond}` enters Trap exactly when the condition holds and is not CNZ, `rte` restores the mode, the interrupt enable and the flags, `drte` leaves Debug Mode, and `sleep` completes and sleeps (R400, R405 to R407, R409). It rests also on decisions D36, D37 of 92_eei_decisions.md, which the spec marks as its own. -/
def Obligations.SystemInstructions : Prop :=
  ∀ (s : State) (imm15 : BitVec 15) (c : Cond) (imm5 : BitVec 5),
    exec (.syscall imm15) s = .next (s.enter .syscall s.pc none) ∧
      (s.privileged = true →
        (c ≠ .cnz → s.holds c = true → exec (.trapCond c imm5) s = .next (s.enter .trap s.pc none)) ∧
        (c = .cnz ∨ s.holds c = false → exec (.trapCond c imm5) s = .next { s with pc := s.pc + 4 }) ∧
        exec .rte s = .next { s with
          psr := { s.psr with umc := s.psr.ums, iec := s.psr.ies }, flags := s.savedFlags, pc := s.epc } ∧
        exec .drte s = .next { s with dreg := { s.dreg with dm := false }, pc := s.depc } ∧
        exec .sleep s = .next { s with sleeping := true, pc := s.pc + 4 })

/-- `mtcr`, where it is privileged: the plain registers take the word, PSR, the Condition register, ECR.IM and DREG their fields at the places of CrLayout, cr18 and the unnamed registers nothing (R383, R50, R53). It rests also on decisions D21 of 92_eei_decisions.md, which the spec marks as its own; and on log 6, 15, 26, 31. -/
def Obligations.MoveToControlRegister : Prop :=
  ∀ (s : State) (rd : Reg), s.privileged = true →
    let v := s.reg rd
    let l := s.cfg.layout
    let at4 (t : State) : State := { t with pc := s.pc + 4 }
    let bits (f : FlagLayout) : Flags :=
      { n := v.getLsbD f.n, z := v.getLsbD f.z, c := v.getLsbD f.c, v := v.getLsbD f.v, t := v.getLsbD f.t }
    (∃ rest, exec (.mtcr rd 0) s = .next (at4 { s with
      psr := { umc := v.getLsbD l.psr.umc, ums := v.getLsbD l.psr.ums, iec := v.getLsbD l.psr.iec
               ies := v.getLsbD l.psr.ies, cra := v.getLsbD l.psr.cra, cu1 := v.getLsbD l.psr.cu1
               cu2 := v.getLsbD l.psr.cu2, cu3 := v.getLsbD l.psr.cu3, rest := rest } })) ∧
    (∃ rest, exec (.mtcr rd 1) s = .next (at4 { s with
      flags := bits l.current, savedFlags := bits l.saved, condRest := rest })) ∧
    (∃ code rest, exec (.mtcr rd 2) s = .next (at4 { s with
      ecr := { excCode := code, im := v.extractLsb' l.im 16, rest := rest } })) ∧
    exec (.mtcr rd 3) s = .next (at4 { s with excpVec := v }) ∧
    exec (.mtcr rd 4) s = .next (at4 { s with ccr := v }) ∧
    exec (.mtcr rd 5) s = .next (at4 { s with epc := v }) ∧
    exec (.mtcr rd 6) s = .next (at4 { s with ema := v }) ∧
    exec (.mtcr rd 15) s = .next (at4 { s with limpfn := v }) ∧
    exec (.mtcr rd 16) s = .next (at4 { s with ldmpfn := v }) ∧
    (∃ rest, exec (.mtcr rd 29) s = .next (at4 { s with
      dreg := { dm := v.getLsbD l.dm, dbp := v.getLsbD l.dbp, brkSt := v.getLsbD l.brkSt, rest := rest } })) ∧
    exec (.mtcr rd 30) s = .next (at4 { s with depc := v }) ∧
    exec (.mtcr rd 31) s = .next (at4 { s with dsave := v }) ∧
    ∀ n : BitVec 5, n.toNat ∉ [0, 1, 2, 3, 4, 5, 6, 15, 16, 29, 30, 31] → exec (.mtcr rd n) s = .next (at4 s)

/-- `mfcr`, where it is privileged, completes for every control register: the plain registers as they are, a value of no meaning for the unnamed registers, and nothing else changes. Of the packed registers, where no two fields share a place and the remainder holds no bit at one (as launchLegal and remaindersClear say, which every step keeps by StepKeepsLaunch), every named field stands at its place of CrLayout and every other bit is the remainder's (R382, R41, R42, R43, R44, R51, R53). It rests also on decisions D9, D21, D22 of 92_eei_decisions.md, which the spec marks as its own; and on log 6, 26, 31. -/
def Obligations.MoveFromControlRegister : Prop :=
  ∀ (s : State) (rd : Reg), s.privileged = true →
    let l := s.cfg.layout
    let gets (n : BitVec 5) (v : Word) : Prop := exec (.mfcr rd n) s = .next { s.setReg rd v with pc := s.pc + 4 }
    let holds (fields : List (Bool × Nat)) (rest v : Word) : Prop :=
      (fields.map Prod.snd).Nodup → (∀ f ∈ fields, rest.getLsbD f.2 = false) →
        (∀ f ∈ fields, v.getLsbD f.2 = f.1) ∧ ∀ j, (∀ f ∈ fields, f.2 ≠ j) → v.getLsbD j = rest.getLsbD j
    let flags (p : FlagLayout) (f : Flags) : List (Bool × Nat) :=
      [(f.n, p.n.val), (f.z, p.z.val), (f.c, p.c.val), (f.v, p.v.val), (f.t, p.t.val)]
    (∃ v, gets 0 v ∧ holds [(s.psr.umc, l.psr.umc.val), (s.psr.ums, l.psr.ums.val), (s.psr.iec, l.psr.iec.val),
      (s.psr.ies, l.psr.ies.val), (s.psr.cra, l.psr.cra.val), (s.psr.cu1, l.psr.cu1.val),
      (s.psr.cu2, l.psr.cu2.val), (s.psr.cu3, l.psr.cu3.val)] s.psr.rest v) ∧
    (∃ v, gets 1 v ∧ holds (flags l.current s.flags ++ flags l.saved s.savedFlags) s.condRest v) ∧
    (∃ v, gets 2 v ∧ holds ((List.range 5).map (fun j => (s.ecr.excCode.getLsbD j, l.excCode.val + j)) ++
      (List.range 16).map (fun j => (s.ecr.im.getLsbD j, l.im.val + j))) s.ecr.rest v) ∧
    (∃ v, gets 29 v ∧ holds [(s.dreg.dm, l.dm.val), (s.dreg.dbp, l.dbp.val), (s.dreg.brkSt, l.brkSt.val)]
      s.dreg.rest v) ∧
    gets 3 s.excpVec ∧ gets 4 s.ccr ∧ gets 5 s.epc ∧ gets 6 s.ema ∧ gets 15 s.limpfn ∧ gets 16 s.ldmpfn ∧
    gets 18 s.prev ∧ gets 30 s.depc ∧ gets 31 s.dsave ∧
    ∀ n : BitVec 5, n.toNat ∉ [0, 1, 2, 3, 4, 5, 6, 15, 16, 18, 29, 30, 31] →
      ∃ v k, exec (.mfcr rd n) s = .next { s.setReg rd v with pc := s.pc + 4, free := k }

/-! ## The 16-bit set (45_16bit.md, 47_enhanced_mac.md section 6) -/

/-- The 16-bit arithmetic, logical and shift instructions: the register result; the flags of the clobbered set are UNDEFINED, T and the flags outside the set stay (R421, R425 to R430, R435 to R438, R440 to R444). It rests also on decisions D18 of 92_eei_decisions.md, which the spec marks as its own; and on log 10, 11. -/
def Obligations.ShortArithmetic : Prop :=
  ∀ (s : State) (rd ra : G0) (exp : BitVec 4) (sa : BitVec 5),
    let a := s.reg (g0 ra)
    let d := s.reg (g0 rd)
    let m := a.toNat % 32
    let gives (i : Instr) (r : Word) (keepsC keepsV : Bool) : Prop :=
      ∃ f k, f.t = s.flags.t ∧ (keepsC = true → f.c = s.flags.c) ∧ (keepsV = true → f.v = s.flags.v) ∧
        exec i s = .next { s.setReg (g0 rd) r with flags := f, pc := s.pc + 2, free := k }
    gives (.add16 rd ra) (d + a) false false ∧
      gives (.addc16 rd ra) (BitVec.ofNat 32 (d.toNat + a.toNat + s.flags.c.toNat)) false false ∧
      gives (.sub16 rd ra) (d - a) false false ∧ gives (.neg16 rd ra) (-a) false false ∧
      gives (.addei16 rd exp) (d + BitVec.ofNat 32 (2 ^ exp.toNat)) false false ∧
      gives (.subei16 rd exp) (d - BitVec.ofNat 32 (2 ^ exp.toNat)) false false ∧
      gives (.and16 rd ra) (d &&& a) true true ∧ gives (.or16 rd ra) (d ||| a) true true ∧
      gives (.xor16 rd ra) (d ^^^ a) true true ∧ gives (.not16 rd ra) (~~~a) true true ∧
      gives (.sll16 rd ra) (BitVec.ofNat 32 (d.toNat * 2 ^ m)) false true ∧
      gives (.slli16 rd sa) (BitVec.ofNat 32 (d.toNat * 2 ^ sa.toNat)) false true ∧
      gives (.srl16 rd ra) (BitVec.ofNat 32 (d.toNat / 2 ^ m)) false true ∧
      gives (.srli16 rd sa) (BitVec.ofNat 32 (d.toNat / 2 ^ sa.toNat)) false true ∧
      gives (.sra16 rd ra) (BitVec.ofInt 32 (d.toInt / 2 ^ m)) false true

/-- Each 16-bit custom-engine instruction has the operation of its 32-bit form on r0..r15 and advances pc by 2 (R581 to R595, R597 to R600). -/
def Obligations.ShortCustomEngine : Prop :=
  ∀ (s : State) (ra rb : G0),
    let a := g0 ra
    let b := g0 rb
    ∀ p ∈ [(Instr.mtcel16 ra, Instr.mtcel a), (.mtceh16 ra, .mtceh a), (.mfcel16 ra, .mfcel a),
      (.mfceh16 ra, .mfceh a), (.mulF16 ra rb, .mulF a b), (.mulu16 ra rb, .mulu a b), (.madF16 ra rb, .madF a b),
      (.madu16 ra rb, .madu a b), (.msbF16 ra rb, .msbF a b), (.msbu16 ra rb, .msbu a b),
      (.mazlF16 ra rb, .mazlF a b), (.mazhF16 ra rb, .mazhF a b), (.madlFs16 ra rb, .madlFs a b),
      (.madhFs16 ra rb, .madhFs a b), (.mszlF16 ra rb, .mszlF a b), (.mszhF16 ra rb, .mszhF a b),
      (.msblFs16 ra rb, .msblFs a b), (.msbhFs16 ra rb, .msbhFs a b)],
      ∃ t, exec p.2 s = .next t ∧ exec p.1 s = .next { t with pc := s.pc + 2 }

end
end

