-- ==== Sys2Proof/Laws/State.lean ====
section
/-! SUPPORT. What each field of the state is after each update: one lemma per field per update. -/

namespace Sys2Proof.Machine

variable (s : State)

/-! ## `setReg` -/

@[simp] theorem setReg_cfg (r : Reg) (v : Word) : (s.setReg r v).cfg = s.cfg := rfl
@[simp] theorem setReg_gpr (r : Reg) (v : Word) : (s.setReg r v).gpr = fileSet s.gpr r v := rfl
@[simp] theorem setReg_pc (r : Reg) (v : Word) : (s.setReg r v).pc = s.pc := rfl
@[simp] theorem setReg_flags (r : Reg) (v : Word) : (s.setReg r v).flags = s.flags := rfl
@[simp] theorem setReg_savedFlags (r : Reg) (v : Word) : (s.setReg r v).savedFlags = s.savedFlags := rfl
@[simp] theorem setReg_condRest (r : Reg) (v : Word) : (s.setReg r v).condRest = s.condRest := rfl
@[simp] theorem setReg_ceh (r : Reg) (v : Word) : (s.setReg r v).ceh = s.ceh := rfl
@[simp] theorem setReg_cel (r : Reg) (v : Word) : (s.setReg r v).cel = s.cel := rfl
@[simp] theorem setReg_cnt (r : Reg) (v : Word) : (s.setReg r v).cnt = s.cnt := rfl
@[simp] theorem setReg_lcr (r : Reg) (v : Word) : (s.setReg r v).lcr = s.lcr := rfl
@[simp] theorem setReg_scr (r : Reg) (v : Word) : (s.setReg r v).scr = s.scr := rfl
@[simp] theorem setReg_psr (r : Reg) (v : Word) : (s.setReg r v).psr = s.psr := rfl
@[simp] theorem setReg_ecr (r : Reg) (v : Word) : (s.setReg r v).ecr = s.ecr := rfl
@[simp] theorem setReg_excpVec (r : Reg) (v : Word) : (s.setReg r v).excpVec = s.excpVec := rfl
@[simp] theorem setReg_ccr (r : Reg) (v : Word) : (s.setReg r v).ccr = s.ccr := rfl
@[simp] theorem setReg_epc (r : Reg) (v : Word) : (s.setReg r v).epc = s.epc := rfl
@[simp] theorem setReg_ema (r : Reg) (v : Word) : (s.setReg r v).ema = s.ema := rfl
@[simp] theorem setReg_limpfn (r : Reg) (v : Word) : (s.setReg r v).limpfn = s.limpfn := rfl
@[simp] theorem setReg_ldmpfn (r : Reg) (v : Word) : (s.setReg r v).ldmpfn = s.ldmpfn := rfl
@[simp] theorem setReg_prev (r : Reg) (v : Word) : (s.setReg r v).prev = s.prev := rfl
@[simp] theorem setReg_dreg (r : Reg) (v : Word) : (s.setReg r v).dreg = s.dreg := rfl
@[simp] theorem setReg_depc (r : Reg) (v : Word) : (s.setReg r v).depc = s.depc := rfl
@[simp] theorem setReg_dsave (r : Reg) (v : Word) : (s.setReg r v).dsave = s.dsave := rfl
@[simp] theorem setReg_cop1 (r : Reg) (v : Word) : (s.setReg r v).cop1 = s.cop1 := rfl
@[simp] theorem setReg_cop2 (r : Reg) (v : Word) : (s.setReg r v).cop2 = s.cop2 := rfl
@[simp] theorem setReg_cop3 (r : Reg) (v : Word) : (s.setReg r v).cop3 = s.cop3 := rfl
@[simp] theorem setReg_sleeping (r : Reg) (v : Word) : (s.setReg r v).sleeping = s.sleeping := rfl
@[simp] theorem setReg_inputs (r : Reg) (v : Word) : (s.setReg r v).inputs = s.inputs := rfl
@[simp] theorem setReg_mem (r : Reg) (v : Word) : (s.setReg r v).mem = s.mem := rfl
@[simp] theorem setReg_free (r : Reg) (v : Word) : (s.setReg r v).free = s.free := rfl

/-! ## `drawReg` -/

@[simp] theorem drawReg_cfg (r : Reg) : (s.drawReg r).cfg = s.cfg := rfl
@[simp] theorem drawReg_gpr (r : Reg) : (s.drawReg r).gpr = fileSet s.gpr r (Config.freeWord s.free) := rfl
@[simp] theorem drawReg_pc (r : Reg) : (s.drawReg r).pc = s.pc := rfl
@[simp] theorem drawReg_flags (r : Reg) : (s.drawReg r).flags = s.flags := rfl
@[simp] theorem drawReg_savedFlags (r : Reg) : (s.drawReg r).savedFlags = s.savedFlags := rfl
@[simp] theorem drawReg_condRest (r : Reg) : (s.drawReg r).condRest = s.condRest := rfl
@[simp] theorem drawReg_ceh (r : Reg) : (s.drawReg r).ceh = s.ceh := rfl
@[simp] theorem drawReg_cel (r : Reg) : (s.drawReg r).cel = s.cel := rfl
@[simp] theorem drawReg_cnt (r : Reg) : (s.drawReg r).cnt = s.cnt := rfl
@[simp] theorem drawReg_lcr (r : Reg) : (s.drawReg r).lcr = s.lcr := rfl
@[simp] theorem drawReg_scr (r : Reg) : (s.drawReg r).scr = s.scr := rfl
@[simp] theorem drawReg_psr (r : Reg) : (s.drawReg r).psr = s.psr := rfl
@[simp] theorem drawReg_ecr (r : Reg) : (s.drawReg r).ecr = s.ecr := rfl
@[simp] theorem drawReg_excpVec (r : Reg) : (s.drawReg r).excpVec = s.excpVec := rfl
@[simp] theorem drawReg_ccr (r : Reg) : (s.drawReg r).ccr = s.ccr := rfl
@[simp] theorem drawReg_epc (r : Reg) : (s.drawReg r).epc = s.epc := rfl
@[simp] theorem drawReg_ema (r : Reg) : (s.drawReg r).ema = s.ema := rfl
@[simp] theorem drawReg_limpfn (r : Reg) : (s.drawReg r).limpfn = s.limpfn := rfl
@[simp] theorem drawReg_ldmpfn (r : Reg) : (s.drawReg r).ldmpfn = s.ldmpfn := rfl
@[simp] theorem drawReg_prev (r : Reg) : (s.drawReg r).prev = s.prev := rfl
@[simp] theorem drawReg_dreg (r : Reg) : (s.drawReg r).dreg = s.dreg := rfl
@[simp] theorem drawReg_depc (r : Reg) : (s.drawReg r).depc = s.depc := rfl
@[simp] theorem drawReg_dsave (r : Reg) : (s.drawReg r).dsave = s.dsave := rfl
@[simp] theorem drawReg_cop1 (r : Reg) : (s.drawReg r).cop1 = s.cop1 := rfl
@[simp] theorem drawReg_cop2 (r : Reg) : (s.drawReg r).cop2 = s.cop2 := rfl
@[simp] theorem drawReg_cop3 (r : Reg) : (s.drawReg r).cop3 = s.cop3 := rfl
@[simp] theorem drawReg_sleeping (r : Reg) : (s.drawReg r).sleeping = s.sleeping := rfl
@[simp] theorem drawReg_inputs (r : Reg) : (s.drawReg r).inputs = s.inputs := rfl
@[simp] theorem drawReg_mem (r : Reg) : (s.drawReg r).mem = s.mem := rfl
@[simp] theorem drawReg_free (r : Reg) : (s.drawReg r).free = s.free + 1 := rfl

/-! ## `advance` -/

@[simp] theorem advance_cfg (len : Word) : (s.advance len).cfg = s.cfg := rfl
@[simp] theorem advance_gpr (len : Word) : (s.advance len).gpr = s.gpr := rfl
@[simp] theorem advance_pc (len : Word) : (s.advance len).pc = s.pc + len := rfl
@[simp] theorem advance_flags (len : Word) : (s.advance len).flags = s.flags := rfl
@[simp] theorem advance_savedFlags (len : Word) : (s.advance len).savedFlags = s.savedFlags := rfl
@[simp] theorem advance_condRest (len : Word) : (s.advance len).condRest = s.condRest := rfl
@[simp] theorem advance_ceh (len : Word) : (s.advance len).ceh = s.ceh := rfl
@[simp] theorem advance_cel (len : Word) : (s.advance len).cel = s.cel := rfl
@[simp] theorem advance_cnt (len : Word) : (s.advance len).cnt = s.cnt := rfl
@[simp] theorem advance_lcr (len : Word) : (s.advance len).lcr = s.lcr := rfl
@[simp] theorem advance_scr (len : Word) : (s.advance len).scr = s.scr := rfl
@[simp] theorem advance_psr (len : Word) : (s.advance len).psr = s.psr := rfl
@[simp] theorem advance_ecr (len : Word) : (s.advance len).ecr = s.ecr := rfl
@[simp] theorem advance_excpVec (len : Word) : (s.advance len).excpVec = s.excpVec := rfl
@[simp] theorem advance_ccr (len : Word) : (s.advance len).ccr = s.ccr := rfl
@[simp] theorem advance_epc (len : Word) : (s.advance len).epc = s.epc := rfl
@[simp] theorem advance_ema (len : Word) : (s.advance len).ema = s.ema := rfl
@[simp] theorem advance_limpfn (len : Word) : (s.advance len).limpfn = s.limpfn := rfl
@[simp] theorem advance_ldmpfn (len : Word) : (s.advance len).ldmpfn = s.ldmpfn := rfl
@[simp] theorem advance_prev (len : Word) : (s.advance len).prev = s.prev := rfl
@[simp] theorem advance_dreg (len : Word) : (s.advance len).dreg = s.dreg := rfl
@[simp] theorem advance_depc (len : Word) : (s.advance len).depc = s.depc := rfl
@[simp] theorem advance_dsave (len : Word) : (s.advance len).dsave = s.dsave := rfl
@[simp] theorem advance_cop1 (len : Word) : (s.advance len).cop1 = s.cop1 := rfl
@[simp] theorem advance_cop2 (len : Word) : (s.advance len).cop2 = s.cop2 := rfl
@[simp] theorem advance_cop3 (len : Word) : (s.advance len).cop3 = s.cop3 := rfl
@[simp] theorem advance_sleeping (len : Word) : (s.advance len).sleeping = s.sleeping := rfl
@[simp] theorem advance_inputs (len : Word) : (s.advance len).inputs = s.inputs := rfl
@[simp] theorem advance_mem (len : Word) : (s.advance len).mem = s.mem := rfl
@[simp] theorem advance_free (len : Word) : (s.advance len).free = s.free := rfl

/-! ## `linked` -/

@[simp] theorem linked_cfg (v : Word) : (s.linked v).cfg = s.cfg := rfl
@[simp] theorem linked_gpr (v : Word) : (s.linked v).gpr = fileSet s.gpr linkRegister v := rfl
@[simp] theorem linked_pc (v : Word) : (s.linked v).pc = s.pc := rfl
@[simp] theorem linked_flags (v : Word) : (s.linked v).flags = s.flags := rfl
@[simp] theorem linked_savedFlags (v : Word) : (s.linked v).savedFlags = s.savedFlags := rfl
@[simp] theorem linked_condRest (v : Word) : (s.linked v).condRest = s.condRest := rfl
@[simp] theorem linked_ceh (v : Word) : (s.linked v).ceh = s.ceh := rfl
@[simp] theorem linked_cel (v : Word) : (s.linked v).cel = s.cel := rfl
@[simp] theorem linked_cnt (v : Word) : (s.linked v).cnt = s.cnt := rfl
@[simp] theorem linked_lcr (v : Word) : (s.linked v).lcr = s.lcr := rfl
@[simp] theorem linked_scr (v : Word) : (s.linked v).scr = s.scr := rfl
@[simp] theorem linked_psr (v : Word) : (s.linked v).psr = s.psr := rfl
@[simp] theorem linked_ecr (v : Word) : (s.linked v).ecr = s.ecr := rfl
@[simp] theorem linked_excpVec (v : Word) : (s.linked v).excpVec = s.excpVec := rfl
@[simp] theorem linked_ccr (v : Word) : (s.linked v).ccr = s.ccr := rfl
@[simp] theorem linked_epc (v : Word) : (s.linked v).epc = s.epc := rfl
@[simp] theorem linked_ema (v : Word) : (s.linked v).ema = s.ema := rfl
@[simp] theorem linked_limpfn (v : Word) : (s.linked v).limpfn = s.limpfn := rfl
@[simp] theorem linked_ldmpfn (v : Word) : (s.linked v).ldmpfn = s.ldmpfn := rfl
@[simp] theorem linked_prev (v : Word) : (s.linked v).prev = s.prev := rfl
@[simp] theorem linked_dreg (v : Word) : (s.linked v).dreg = s.dreg := rfl
@[simp] theorem linked_depc (v : Word) : (s.linked v).depc = s.depc := rfl
@[simp] theorem linked_dsave (v : Word) : (s.linked v).dsave = s.dsave := rfl
@[simp] theorem linked_cop1 (v : Word) : (s.linked v).cop1 = s.cop1 := rfl
@[simp] theorem linked_cop2 (v : Word) : (s.linked v).cop2 = s.cop2 := rfl
@[simp] theorem linked_cop3 (v : Word) : (s.linked v).cop3 = s.cop3 := rfl
@[simp] theorem linked_sleeping (v : Word) : (s.linked v).sleeping = s.sleeping := rfl
@[simp] theorem linked_inputs (v : Word) : (s.linked v).inputs = s.inputs := rfl
@[simp] theorem linked_mem (v : Word) : (s.linked v).mem = s.mem := rfl
@[simp] theorem linked_free (v : Word) : (s.linked v).free = s.free := rfl

/-! ## `setAcc` -/

@[simp] theorem setAcc_cfg (v : BitVec 64) : (s.setAcc v).cfg = s.cfg := rfl
@[simp] theorem setAcc_gpr (v : BitVec 64) : (s.setAcc v).gpr = s.gpr := rfl
@[simp] theorem setAcc_pc (v : BitVec 64) : (s.setAcc v).pc = s.pc := rfl
@[simp] theorem setAcc_flags (v : BitVec 64) : (s.setAcc v).flags = s.flags := rfl
@[simp] theorem setAcc_savedFlags (v : BitVec 64) : (s.setAcc v).savedFlags = s.savedFlags := rfl
@[simp] theorem setAcc_condRest (v : BitVec 64) : (s.setAcc v).condRest = s.condRest := rfl
@[simp] theorem setAcc_ceh (v : BitVec 64) : (s.setAcc v).ceh = v.extractLsb' 32 32 := rfl
@[simp] theorem setAcc_cel (v : BitVec 64) : (s.setAcc v).cel = v.extractLsb' 0 32 := rfl
@[simp] theorem setAcc_cnt (v : BitVec 64) : (s.setAcc v).cnt = s.cnt := rfl
@[simp] theorem setAcc_lcr (v : BitVec 64) : (s.setAcc v).lcr = s.lcr := rfl
@[simp] theorem setAcc_scr (v : BitVec 64) : (s.setAcc v).scr = s.scr := rfl
@[simp] theorem setAcc_psr (v : BitVec 64) : (s.setAcc v).psr = s.psr := rfl
@[simp] theorem setAcc_ecr (v : BitVec 64) : (s.setAcc v).ecr = s.ecr := rfl
@[simp] theorem setAcc_excpVec (v : BitVec 64) : (s.setAcc v).excpVec = s.excpVec := rfl
@[simp] theorem setAcc_ccr (v : BitVec 64) : (s.setAcc v).ccr = s.ccr := rfl
@[simp] theorem setAcc_epc (v : BitVec 64) : (s.setAcc v).epc = s.epc := rfl
@[simp] theorem setAcc_ema (v : BitVec 64) : (s.setAcc v).ema = s.ema := rfl
@[simp] theorem setAcc_limpfn (v : BitVec 64) : (s.setAcc v).limpfn = s.limpfn := rfl
@[simp] theorem setAcc_ldmpfn (v : BitVec 64) : (s.setAcc v).ldmpfn = s.ldmpfn := rfl
@[simp] theorem setAcc_prev (v : BitVec 64) : (s.setAcc v).prev = s.prev := rfl
@[simp] theorem setAcc_dreg (v : BitVec 64) : (s.setAcc v).dreg = s.dreg := rfl
@[simp] theorem setAcc_depc (v : BitVec 64) : (s.setAcc v).depc = s.depc := rfl
@[simp] theorem setAcc_dsave (v : BitVec 64) : (s.setAcc v).dsave = s.dsave := rfl
@[simp] theorem setAcc_cop1 (v : BitVec 64) : (s.setAcc v).cop1 = s.cop1 := rfl
@[simp] theorem setAcc_cop2 (v : BitVec 64) : (s.setAcc v).cop2 = s.cop2 := rfl
@[simp] theorem setAcc_cop3 (v : BitVec 64) : (s.setAcc v).cop3 = s.cop3 := rfl
@[simp] theorem setAcc_sleeping (v : BitVec 64) : (s.setAcc v).sleeping = s.sleeping := rfl
@[simp] theorem setAcc_inputs (v : BitVec 64) : (s.setAcc v).inputs = s.inputs := rfl
@[simp] theorem setAcc_mem (v : BitVec 64) : (s.setAcc v).mem = s.mem := rfl
@[simp] theorem setAcc_free (v : BitVec 64) : (s.setAcc v).free = s.free := rfl

/-! ## `drawAcc` -/

@[simp] theorem drawAcc_cfg : s.drawAcc.cfg = s.cfg := rfl
@[simp] theorem drawAcc_gpr : s.drawAcc.gpr = s.gpr := rfl
@[simp] theorem drawAcc_pc : s.drawAcc.pc = s.pc := rfl
@[simp] theorem drawAcc_flags : s.drawAcc.flags = s.flags := rfl
@[simp] theorem drawAcc_savedFlags : s.drawAcc.savedFlags = s.savedFlags := rfl
@[simp] theorem drawAcc_condRest : s.drawAcc.condRest = s.condRest := rfl
@[simp] theorem drawAcc_ceh : s.drawAcc.ceh = Config.freeWord s.free := rfl
@[simp] theorem drawAcc_cel : s.drawAcc.cel = Config.freeWord (s.free + 1) := rfl
@[simp] theorem drawAcc_cnt : s.drawAcc.cnt = s.cnt := rfl
@[simp] theorem drawAcc_lcr : s.drawAcc.lcr = s.lcr := rfl
@[simp] theorem drawAcc_scr : s.drawAcc.scr = s.scr := rfl
@[simp] theorem drawAcc_psr : s.drawAcc.psr = s.psr := rfl
@[simp] theorem drawAcc_ecr : s.drawAcc.ecr = s.ecr := rfl
@[simp] theorem drawAcc_excpVec : s.drawAcc.excpVec = s.excpVec := rfl
@[simp] theorem drawAcc_ccr : s.drawAcc.ccr = s.ccr := rfl
@[simp] theorem drawAcc_epc : s.drawAcc.epc = s.epc := rfl
@[simp] theorem drawAcc_ema : s.drawAcc.ema = s.ema := rfl
@[simp] theorem drawAcc_limpfn : s.drawAcc.limpfn = s.limpfn := rfl
@[simp] theorem drawAcc_ldmpfn : s.drawAcc.ldmpfn = s.ldmpfn := rfl
@[simp] theorem drawAcc_prev : s.drawAcc.prev = s.prev := rfl
@[simp] theorem drawAcc_dreg : s.drawAcc.dreg = s.dreg := rfl
@[simp] theorem drawAcc_depc : s.drawAcc.depc = s.depc := rfl
@[simp] theorem drawAcc_dsave : s.drawAcc.dsave = s.dsave := rfl
@[simp] theorem drawAcc_cop1 : s.drawAcc.cop1 = s.cop1 := rfl
@[simp] theorem drawAcc_cop2 : s.drawAcc.cop2 = s.cop2 := rfl
@[simp] theorem drawAcc_cop3 : s.drawAcc.cop3 = s.cop3 := rfl
@[simp] theorem drawAcc_sleeping : s.drawAcc.sleeping = s.sleeping := rfl
@[simp] theorem drawAcc_inputs : s.drawAcc.inputs = s.inputs := rfl
@[simp] theorem drawAcc_mem : s.drawAcc.mem = s.mem := rfl
@[simp] theorem drawAcc_free : s.drawAcc.free = s.free + 2 := rfl

/-! ## `accumulated` -/

@[simp] theorem accumulated_cfg (v : Int) : (s.accumulated v).cfg = s.cfg := rfl
@[simp] theorem accumulated_gpr (v : Int) : (s.accumulated v).gpr = s.gpr := rfl
@[simp] theorem accumulated_pc (v : Int) : (s.accumulated v).pc = s.pc := rfl
@[simp] theorem accumulated_flags (v : Int) : (s.accumulated v).flags = s.flags := rfl
@[simp] theorem accumulated_savedFlags (v : Int) : (s.accumulated v).savedFlags = s.savedFlags := rfl
@[simp] theorem accumulated_condRest (v : Int) : (s.accumulated v).condRest = s.condRest := rfl
@[simp] theorem accumulated_ceh (v : Int) : (s.accumulated v).ceh = (BitVec.ofInt 64 v).extractLsb' 32 32 := rfl
@[simp] theorem accumulated_cel (v : Int) : (s.accumulated v).cel = (BitVec.ofInt 64 v).extractLsb' 0 32 := rfl
@[simp] theorem accumulated_cnt (v : Int) : (s.accumulated v).cnt = s.cnt := rfl
@[simp] theorem accumulated_lcr (v : Int) : (s.accumulated v).lcr = s.lcr := rfl
@[simp] theorem accumulated_scr (v : Int) : (s.accumulated v).scr = s.scr := rfl
@[simp] theorem accumulated_psr (v : Int) : (s.accumulated v).psr = s.psr := rfl
@[simp] theorem accumulated_ecr (v : Int) : (s.accumulated v).ecr = s.ecr := rfl
@[simp] theorem accumulated_excpVec (v : Int) : (s.accumulated v).excpVec = s.excpVec := rfl
@[simp] theorem accumulated_ccr (v : Int) : (s.accumulated v).ccr = s.ccr := rfl
@[simp] theorem accumulated_epc (v : Int) : (s.accumulated v).epc = s.epc := rfl
@[simp] theorem accumulated_ema (v : Int) : (s.accumulated v).ema = s.ema := rfl
@[simp] theorem accumulated_limpfn (v : Int) : (s.accumulated v).limpfn = s.limpfn := rfl
@[simp] theorem accumulated_ldmpfn (v : Int) : (s.accumulated v).ldmpfn = s.ldmpfn := rfl
@[simp] theorem accumulated_prev (v : Int) : (s.accumulated v).prev = s.prev := rfl
@[simp] theorem accumulated_dreg (v : Int) : (s.accumulated v).dreg = s.dreg := rfl
@[simp] theorem accumulated_depc (v : Int) : (s.accumulated v).depc = s.depc := rfl
@[simp] theorem accumulated_dsave (v : Int) : (s.accumulated v).dsave = s.dsave := rfl
@[simp] theorem accumulated_cop1 (v : Int) : (s.accumulated v).cop1 = s.cop1 := rfl
@[simp] theorem accumulated_cop2 (v : Int) : (s.accumulated v).cop2 = s.cop2 := rfl
@[simp] theorem accumulated_cop3 (v : Int) : (s.accumulated v).cop3 = s.cop3 := rfl
@[simp] theorem accumulated_sleeping (v : Int) : (s.accumulated v).sleeping = s.sleeping := rfl
@[simp] theorem accumulated_inputs (v : Int) : (s.accumulated v).inputs = s.inputs := rfl
@[simp] theorem accumulated_mem (v : Int) : (s.accumulated v).mem = s.mem := rfl
@[simp] theorem accumulated_free (v : Int) : (s.accumulated v).free = s.free := rfl

/-! ## `putFlags` -/

@[simp] theorem putFlags_cfg (u : FlagUpdate) : (s.putFlags u).cfg = s.cfg := rfl
@[simp] theorem putFlags_gpr (u : FlagUpdate) : (s.putFlags u).gpr = s.gpr := rfl
@[simp] theorem putFlags_pc (u : FlagUpdate) : (s.putFlags u).pc = s.pc := rfl
@[simp] theorem putFlags_flags (u : FlagUpdate) : (s.putFlags u).flags = u.flags s.flags (Config.freeFlags s.free) := rfl
@[simp] theorem putFlags_savedFlags (u : FlagUpdate) : (s.putFlags u).savedFlags = s.savedFlags := rfl
@[simp] theorem putFlags_condRest (u : FlagUpdate) : (s.putFlags u).condRest = s.condRest := rfl
@[simp] theorem putFlags_ceh (u : FlagUpdate) : (s.putFlags u).ceh = s.ceh := rfl
@[simp] theorem putFlags_cel (u : FlagUpdate) : (s.putFlags u).cel = s.cel := rfl
@[simp] theorem putFlags_cnt (u : FlagUpdate) : (s.putFlags u).cnt = s.cnt := rfl
@[simp] theorem putFlags_lcr (u : FlagUpdate) : (s.putFlags u).lcr = s.lcr := rfl
@[simp] theorem putFlags_scr (u : FlagUpdate) : (s.putFlags u).scr = s.scr := rfl
@[simp] theorem putFlags_psr (u : FlagUpdate) : (s.putFlags u).psr = s.psr := rfl
@[simp] theorem putFlags_ecr (u : FlagUpdate) : (s.putFlags u).ecr = s.ecr := rfl
@[simp] theorem putFlags_excpVec (u : FlagUpdate) : (s.putFlags u).excpVec = s.excpVec := rfl
@[simp] theorem putFlags_ccr (u : FlagUpdate) : (s.putFlags u).ccr = s.ccr := rfl
@[simp] theorem putFlags_epc (u : FlagUpdate) : (s.putFlags u).epc = s.epc := rfl
@[simp] theorem putFlags_ema (u : FlagUpdate) : (s.putFlags u).ema = s.ema := rfl
@[simp] theorem putFlags_limpfn (u : FlagUpdate) : (s.putFlags u).limpfn = s.limpfn := rfl
@[simp] theorem putFlags_ldmpfn (u : FlagUpdate) : (s.putFlags u).ldmpfn = s.ldmpfn := rfl
@[simp] theorem putFlags_prev (u : FlagUpdate) : (s.putFlags u).prev = s.prev := rfl
@[simp] theorem putFlags_dreg (u : FlagUpdate) : (s.putFlags u).dreg = s.dreg := rfl
@[simp] theorem putFlags_depc (u : FlagUpdate) : (s.putFlags u).depc = s.depc := rfl
@[simp] theorem putFlags_dsave (u : FlagUpdate) : (s.putFlags u).dsave = s.dsave := rfl
@[simp] theorem putFlags_cop1 (u : FlagUpdate) : (s.putFlags u).cop1 = s.cop1 := rfl
@[simp] theorem putFlags_cop2 (u : FlagUpdate) : (s.putFlags u).cop2 = s.cop2 := rfl
@[simp] theorem putFlags_cop3 (u : FlagUpdate) : (s.putFlags u).cop3 = s.cop3 := rfl
@[simp] theorem putFlags_sleeping (u : FlagUpdate) : (s.putFlags u).sleeping = s.sleeping := rfl
@[simp] theorem putFlags_inputs (u : FlagUpdate) : (s.putFlags u).inputs = s.inputs := rfl
@[simp] theorem putFlags_mem (u : FlagUpdate) : (s.putFlags u).mem = s.mem := rfl
@[simp] theorem putFlags_free (u : FlagUpdate) : (s.putFlags u).free = if u.draws then s.free + 1 else s.free := rfl

/-! ## `computed` -/

@[simp] theorem computed_cfg (rd : Reg) (v : Word) (u : FlagUpdate) (len : Word) : (s.computed rd v u len).cfg = s.cfg := rfl
@[simp] theorem computed_gpr (rd : Reg) (v : Word) (u : FlagUpdate) (len : Word) : (s.computed rd v u len).gpr = fileSet s.gpr rd v := rfl
@[simp] theorem computed_pc (rd : Reg) (v : Word) (u : FlagUpdate) (len : Word) : (s.computed rd v u len).pc = s.pc + len := rfl
@[simp] theorem computed_flags (rd : Reg) (v : Word) (u : FlagUpdate) (len : Word) : (s.computed rd v u len).flags = u.flags s.flags (Config.freeFlags s.free) := rfl
@[simp] theorem computed_savedFlags (rd : Reg) (v : Word) (u : FlagUpdate) (len : Word) : (s.computed rd v u len).savedFlags = s.savedFlags := rfl
@[simp] theorem computed_condRest (rd : Reg) (v : Word) (u : FlagUpdate) (len : Word) : (s.computed rd v u len).condRest = s.condRest := rfl
@[simp] theorem computed_ceh (rd : Reg) (v : Word) (u : FlagUpdate) (len : Word) : (s.computed rd v u len).ceh = s.ceh := rfl
@[simp] theorem computed_cel (rd : Reg) (v : Word) (u : FlagUpdate) (len : Word) : (s.computed rd v u len).cel = s.cel := rfl
@[simp] theorem computed_cnt (rd : Reg) (v : Word) (u : FlagUpdate) (len : Word) : (s.computed rd v u len).cnt = s.cnt := rfl
@[simp] theorem computed_lcr (rd : Reg) (v : Word) (u : FlagUpdate) (len : Word) : (s.computed rd v u len).lcr = s.lcr := rfl
@[simp] theorem computed_scr (rd : Reg) (v : Word) (u : FlagUpdate) (len : Word) : (s.computed rd v u len).scr = s.scr := rfl
@[simp] theorem computed_psr (rd : Reg) (v : Word) (u : FlagUpdate) (len : Word) : (s.computed rd v u len).psr = s.psr := rfl
@[simp] theorem computed_ecr (rd : Reg) (v : Word) (u : FlagUpdate) (len : Word) : (s.computed rd v u len).ecr = s.ecr := rfl
@[simp] theorem computed_excpVec (rd : Reg) (v : Word) (u : FlagUpdate) (len : Word) : (s.computed rd v u len).excpVec = s.excpVec := rfl
@[simp] theorem computed_ccr (rd : Reg) (v : Word) (u : FlagUpdate) (len : Word) : (s.computed rd v u len).ccr = s.ccr := rfl
@[simp] theorem computed_epc (rd : Reg) (v : Word) (u : FlagUpdate) (len : Word) : (s.computed rd v u len).epc = s.epc := rfl
@[simp] theorem computed_ema (rd : Reg) (v : Word) (u : FlagUpdate) (len : Word) : (s.computed rd v u len).ema = s.ema := rfl
@[simp] theorem computed_limpfn (rd : Reg) (v : Word) (u : FlagUpdate) (len : Word) : (s.computed rd v u len).limpfn = s.limpfn := rfl
@[simp] theorem computed_ldmpfn (rd : Reg) (v : Word) (u : FlagUpdate) (len : Word) : (s.computed rd v u len).ldmpfn = s.ldmpfn := rfl
@[simp] theorem computed_prev (rd : Reg) (v : Word) (u : FlagUpdate) (len : Word) : (s.computed rd v u len).prev = s.prev := rfl
@[simp] theorem computed_dreg (rd : Reg) (v : Word) (u : FlagUpdate) (len : Word) : (s.computed rd v u len).dreg = s.dreg := rfl
@[simp] theorem computed_depc (rd : Reg) (v : Word) (u : FlagUpdate) (len : Word) : (s.computed rd v u len).depc = s.depc := rfl
@[simp] theorem computed_dsave (rd : Reg) (v : Word) (u : FlagUpdate) (len : Word) : (s.computed rd v u len).dsave = s.dsave := rfl
@[simp] theorem computed_cop1 (rd : Reg) (v : Word) (u : FlagUpdate) (len : Word) : (s.computed rd v u len).cop1 = s.cop1 := rfl
@[simp] theorem computed_cop2 (rd : Reg) (v : Word) (u : FlagUpdate) (len : Word) : (s.computed rd v u len).cop2 = s.cop2 := rfl
@[simp] theorem computed_cop3 (rd : Reg) (v : Word) (u : FlagUpdate) (len : Word) : (s.computed rd v u len).cop3 = s.cop3 := rfl
@[simp] theorem computed_sleeping (rd : Reg) (v : Word) (u : FlagUpdate) (len : Word) : (s.computed rd v u len).sleeping = s.sleeping := rfl
@[simp] theorem computed_inputs (rd : Reg) (v : Word) (u : FlagUpdate) (len : Word) : (s.computed rd v u len).inputs = s.inputs := rfl
@[simp] theorem computed_mem (rd : Reg) (v : Word) (u : FlagUpdate) (len : Word) : (s.computed rd v u len).mem = s.mem := rfl
@[simp] theorem computed_free (rd : Reg) (v : Word) (u : FlagUpdate) (len : Word) : (s.computed rd v u len).free = if u.draws then s.free + 1 else s.free := rfl

/-! ## `tested` -/

@[simp] theorem tested_cfg (u : FlagUpdate) (len : Word) : (s.tested u len).cfg = s.cfg := rfl
@[simp] theorem tested_gpr (u : FlagUpdate) (len : Word) : (s.tested u len).gpr = s.gpr := rfl
@[simp] theorem tested_pc (u : FlagUpdate) (len : Word) : (s.tested u len).pc = s.pc + len := rfl
@[simp] theorem tested_flags (u : FlagUpdate) (len : Word) : (s.tested u len).flags = u.flags s.flags (Config.freeFlags s.free) := rfl
@[simp] theorem tested_savedFlags (u : FlagUpdate) (len : Word) : (s.tested u len).savedFlags = s.savedFlags := rfl
@[simp] theorem tested_condRest (u : FlagUpdate) (len : Word) : (s.tested u len).condRest = s.condRest := rfl
@[simp] theorem tested_ceh (u : FlagUpdate) (len : Word) : (s.tested u len).ceh = s.ceh := rfl
@[simp] theorem tested_cel (u : FlagUpdate) (len : Word) : (s.tested u len).cel = s.cel := rfl
@[simp] theorem tested_cnt (u : FlagUpdate) (len : Word) : (s.tested u len).cnt = s.cnt := rfl
@[simp] theorem tested_lcr (u : FlagUpdate) (len : Word) : (s.tested u len).lcr = s.lcr := rfl
@[simp] theorem tested_scr (u : FlagUpdate) (len : Word) : (s.tested u len).scr = s.scr := rfl
@[simp] theorem tested_psr (u : FlagUpdate) (len : Word) : (s.tested u len).psr = s.psr := rfl
@[simp] theorem tested_ecr (u : FlagUpdate) (len : Word) : (s.tested u len).ecr = s.ecr := rfl
@[simp] theorem tested_excpVec (u : FlagUpdate) (len : Word) : (s.tested u len).excpVec = s.excpVec := rfl
@[simp] theorem tested_ccr (u : FlagUpdate) (len : Word) : (s.tested u len).ccr = s.ccr := rfl
@[simp] theorem tested_epc (u : FlagUpdate) (len : Word) : (s.tested u len).epc = s.epc := rfl
@[simp] theorem tested_ema (u : FlagUpdate) (len : Word) : (s.tested u len).ema = s.ema := rfl
@[simp] theorem tested_limpfn (u : FlagUpdate) (len : Word) : (s.tested u len).limpfn = s.limpfn := rfl
@[simp] theorem tested_ldmpfn (u : FlagUpdate) (len : Word) : (s.tested u len).ldmpfn = s.ldmpfn := rfl
@[simp] theorem tested_prev (u : FlagUpdate) (len : Word) : (s.tested u len).prev = s.prev := rfl
@[simp] theorem tested_dreg (u : FlagUpdate) (len : Word) : (s.tested u len).dreg = s.dreg := rfl
@[simp] theorem tested_depc (u : FlagUpdate) (len : Word) : (s.tested u len).depc = s.depc := rfl
@[simp] theorem tested_dsave (u : FlagUpdate) (len : Word) : (s.tested u len).dsave = s.dsave := rfl
@[simp] theorem tested_cop1 (u : FlagUpdate) (len : Word) : (s.tested u len).cop1 = s.cop1 := rfl
@[simp] theorem tested_cop2 (u : FlagUpdate) (len : Word) : (s.tested u len).cop2 = s.cop2 := rfl
@[simp] theorem tested_cop3 (u : FlagUpdate) (len : Word) : (s.tested u len).cop3 = s.cop3 := rfl
@[simp] theorem tested_sleeping (u : FlagUpdate) (len : Word) : (s.tested u len).sleeping = s.sleeping := rfl
@[simp] theorem tested_inputs (u : FlagUpdate) (len : Word) : (s.tested u len).inputs = s.inputs := rfl
@[simp] theorem tested_mem (u : FlagUpdate) (len : Word) : (s.tested u len).mem = s.mem := rfl
@[simp] theorem tested_free (u : FlagUpdate) (len : Word) : (s.tested u len).free = if u.draws then s.free + 1 else s.free := rfl

/-! ## `branched` -/

@[simp] theorem branched_cfg (c : Cond) (target len : Word) : (s.branched c target len).cfg = s.cfg := rfl
@[simp] theorem branched_gpr (c : Cond) (target len : Word) : (s.branched c target len).gpr = s.gpr := rfl
@[simp] theorem branched_pc (c : Cond) (target len : Word) : (s.branched c target len).pc = if s.holds c then target else s.pc + len := rfl
@[simp] theorem branched_flags (c : Cond) (target len : Word) : (s.branched c target len).flags = s.flags := rfl
@[simp] theorem branched_savedFlags (c : Cond) (target len : Word) : (s.branched c target len).savedFlags = s.savedFlags := rfl
@[simp] theorem branched_condRest (c : Cond) (target len : Word) : (s.branched c target len).condRest = s.condRest := rfl
@[simp] theorem branched_ceh (c : Cond) (target len : Word) : (s.branched c target len).ceh = s.ceh := rfl
@[simp] theorem branched_cel (c : Cond) (target len : Word) : (s.branched c target len).cel = s.cel := rfl
@[simp] theorem branched_cnt (c : Cond) (target len : Word) : (s.branched c target len).cnt = s.countAfter c := rfl
@[simp] theorem branched_lcr (c : Cond) (target len : Word) : (s.branched c target len).lcr = s.lcr := rfl
@[simp] theorem branched_scr (c : Cond) (target len : Word) : (s.branched c target len).scr = s.scr := rfl
@[simp] theorem branched_psr (c : Cond) (target len : Word) : (s.branched c target len).psr = s.psr := rfl
@[simp] theorem branched_ecr (c : Cond) (target len : Word) : (s.branched c target len).ecr = s.ecr := rfl
@[simp] theorem branched_excpVec (c : Cond) (target len : Word) : (s.branched c target len).excpVec = s.excpVec := rfl
@[simp] theorem branched_ccr (c : Cond) (target len : Word) : (s.branched c target len).ccr = s.ccr := rfl
@[simp] theorem branched_epc (c : Cond) (target len : Word) : (s.branched c target len).epc = s.epc := rfl
@[simp] theorem branched_ema (c : Cond) (target len : Word) : (s.branched c target len).ema = s.ema := rfl
@[simp] theorem branched_limpfn (c : Cond) (target len : Word) : (s.branched c target len).limpfn = s.limpfn := rfl
@[simp] theorem branched_ldmpfn (c : Cond) (target len : Word) : (s.branched c target len).ldmpfn = s.ldmpfn := rfl
@[simp] theorem branched_prev (c : Cond) (target len : Word) : (s.branched c target len).prev = s.prev := rfl
@[simp] theorem branched_dreg (c : Cond) (target len : Word) : (s.branched c target len).dreg = s.dreg := rfl
@[simp] theorem branched_depc (c : Cond) (target len : Word) : (s.branched c target len).depc = s.depc := rfl
@[simp] theorem branched_dsave (c : Cond) (target len : Word) : (s.branched c target len).dsave = s.dsave := rfl
@[simp] theorem branched_cop1 (c : Cond) (target len : Word) : (s.branched c target len).cop1 = s.cop1 := rfl
@[simp] theorem branched_cop2 (c : Cond) (target len : Word) : (s.branched c target len).cop2 = s.cop2 := rfl
@[simp] theorem branched_cop3 (c : Cond) (target len : Word) : (s.branched c target len).cop3 = s.cop3 := rfl
@[simp] theorem branched_sleeping (c : Cond) (target len : Word) : (s.branched c target len).sleeping = s.sleeping := rfl
@[simp] theorem branched_inputs (c : Cond) (target len : Word) : (s.branched c target len).inputs = s.inputs := rfl
@[simp] theorem branched_mem (c : Cond) (target len : Word) : (s.branched c target len).mem = s.mem := rfl
@[simp] theorem branched_free (c : Cond) (target len : Word) : (s.branched c target len).free = s.free := rfl

/-! ## `write` -/

@[simp] theorem write_cfg (a : Word) (bs : List Byte) : (s.write a bs).cfg = s.cfg := rfl
@[simp] theorem write_gpr (a : Word) (bs : List Byte) : (s.write a bs).gpr = s.gpr := rfl
@[simp] theorem write_pc (a : Word) (bs : List Byte) : (s.write a bs).pc = s.pc := rfl
@[simp] theorem write_flags (a : Word) (bs : List Byte) : (s.write a bs).flags = s.flags := rfl
@[simp] theorem write_savedFlags (a : Word) (bs : List Byte) : (s.write a bs).savedFlags = s.savedFlags := rfl
@[simp] theorem write_condRest (a : Word) (bs : List Byte) : (s.write a bs).condRest = s.condRest := rfl
@[simp] theorem write_ceh (a : Word) (bs : List Byte) : (s.write a bs).ceh = s.ceh := rfl
@[simp] theorem write_cel (a : Word) (bs : List Byte) : (s.write a bs).cel = s.cel := rfl
@[simp] theorem write_cnt (a : Word) (bs : List Byte) : (s.write a bs).cnt = s.cnt := rfl
@[simp] theorem write_lcr (a : Word) (bs : List Byte) : (s.write a bs).lcr = s.lcr := rfl
@[simp] theorem write_scr (a : Word) (bs : List Byte) : (s.write a bs).scr = s.scr := rfl
@[simp] theorem write_psr (a : Word) (bs : List Byte) : (s.write a bs).psr = s.psr := rfl
@[simp] theorem write_ecr (a : Word) (bs : List Byte) : (s.write a bs).ecr = s.ecr := rfl
@[simp] theorem write_excpVec (a : Word) (bs : List Byte) : (s.write a bs).excpVec = s.excpVec := rfl
@[simp] theorem write_ccr (a : Word) (bs : List Byte) : (s.write a bs).ccr = s.ccr := rfl
@[simp] theorem write_epc (a : Word) (bs : List Byte) : (s.write a bs).epc = s.epc := rfl
@[simp] theorem write_ema (a : Word) (bs : List Byte) : (s.write a bs).ema = s.ema := rfl
@[simp] theorem write_limpfn (a : Word) (bs : List Byte) : (s.write a bs).limpfn = s.limpfn := rfl
@[simp] theorem write_ldmpfn (a : Word) (bs : List Byte) : (s.write a bs).ldmpfn = s.ldmpfn := rfl
@[simp] theorem write_prev (a : Word) (bs : List Byte) : (s.write a bs).prev = s.prev := rfl
@[simp] theorem write_dreg (a : Word) (bs : List Byte) : (s.write a bs).dreg = s.dreg := rfl
@[simp] theorem write_depc (a : Word) (bs : List Byte) : (s.write a bs).depc = s.depc := rfl
@[simp] theorem write_dsave (a : Word) (bs : List Byte) : (s.write a bs).dsave = s.dsave := rfl
@[simp] theorem write_cop1 (a : Word) (bs : List Byte) : (s.write a bs).cop1 = s.cop1 := rfl
@[simp] theorem write_cop2 (a : Word) (bs : List Byte) : (s.write a bs).cop2 = s.cop2 := rfl
@[simp] theorem write_cop3 (a : Word) (bs : List Byte) : (s.write a bs).cop3 = s.cop3 := rfl
@[simp] theorem write_sleeping (a : Word) (bs : List Byte) : (s.write a bs).sleeping = s.sleeping := rfl
@[simp] theorem write_inputs (a : Word) (bs : List Byte) : (s.write a bs).inputs = s.inputs := rfl
@[simp] theorem write_mem (a : Word) (bs : List Byte) : (s.write a bs).mem = writeBytes s.mem a bs := rfl
@[simp] theorem write_free (a : Word) (bs : List Byte) : (s.write a bs).free = s.free := rfl

/-! ## `stored` -/

@[simp] theorem stored_cfg (w : Width) (ea v : Word) : (s.stored w ea v).cfg = s.cfg := rfl
@[simp] theorem stored_gpr (w : Width) (ea v : Word) : (s.stored w ea v).gpr = s.gpr := rfl
@[simp] theorem stored_pc (w : Width) (ea v : Word) : (s.stored w ea v).pc = s.pc := rfl
@[simp] theorem stored_flags (w : Width) (ea v : Word) : (s.stored w ea v).flags = s.flags := rfl
@[simp] theorem stored_savedFlags (w : Width) (ea v : Word) : (s.stored w ea v).savedFlags = s.savedFlags := rfl
@[simp] theorem stored_condRest (w : Width) (ea v : Word) : (s.stored w ea v).condRest = s.condRest := rfl
@[simp] theorem stored_ceh (w : Width) (ea v : Word) : (s.stored w ea v).ceh = s.ceh := rfl
@[simp] theorem stored_cel (w : Width) (ea v : Word) : (s.stored w ea v).cel = s.cel := rfl
@[simp] theorem stored_cnt (w : Width) (ea v : Word) : (s.stored w ea v).cnt = s.cnt := rfl
@[simp] theorem stored_lcr (w : Width) (ea v : Word) : (s.stored w ea v).lcr = s.lcr := rfl
@[simp] theorem stored_scr (w : Width) (ea v : Word) : (s.stored w ea v).scr = s.scr := rfl
@[simp] theorem stored_psr (w : Width) (ea v : Word) : (s.stored w ea v).psr = s.psr := rfl
@[simp] theorem stored_ecr (w : Width) (ea v : Word) : (s.stored w ea v).ecr = s.ecr := rfl
@[simp] theorem stored_excpVec (w : Width) (ea v : Word) : (s.stored w ea v).excpVec = s.excpVec := rfl
@[simp] theorem stored_ccr (w : Width) (ea v : Word) : (s.stored w ea v).ccr = s.ccr := rfl
@[simp] theorem stored_epc (w : Width) (ea v : Word) : (s.stored w ea v).epc = s.epc := rfl
@[simp] theorem stored_ema (w : Width) (ea v : Word) : (s.stored w ea v).ema = s.ema := rfl
@[simp] theorem stored_limpfn (w : Width) (ea v : Word) : (s.stored w ea v).limpfn = s.limpfn := rfl
@[simp] theorem stored_ldmpfn (w : Width) (ea v : Word) : (s.stored w ea v).ldmpfn = s.ldmpfn := rfl
@[simp] theorem stored_prev (w : Width) (ea v : Word) : (s.stored w ea v).prev = s.prev := rfl
@[simp] theorem stored_dreg (w : Width) (ea v : Word) : (s.stored w ea v).dreg = s.dreg := rfl
@[simp] theorem stored_depc (w : Width) (ea v : Word) : (s.stored w ea v).depc = s.depc := rfl
@[simp] theorem stored_dsave (w : Width) (ea v : Word) : (s.stored w ea v).dsave = s.dsave := rfl
@[simp] theorem stored_cop1 (w : Width) (ea v : Word) : (s.stored w ea v).cop1 = s.cop1 := rfl
@[simp] theorem stored_cop2 (w : Width) (ea v : Word) : (s.stored w ea v).cop2 = s.cop2 := rfl
@[simp] theorem stored_cop3 (w : Width) (ea v : Word) : (s.stored w ea v).cop3 = s.cop3 := rfl
@[simp] theorem stored_sleeping (w : Width) (ea v : Word) : (s.stored w ea v).sleeping = s.sleeping := rfl
@[simp] theorem stored_inputs (w : Width) (ea v : Word) : (s.stored w ea v).inputs = s.inputs := rfl
@[simp] theorem stored_mem (w : Width) (ea v : Word) : (s.stored w ea v).mem = writeBytes s.mem ea (storedBytes s.cfg.littleEndian w v) := rfl
@[simp] theorem stored_free (w : Width) (ea v : Word) : (s.stored w ea v).free = s.free := rfl

/-! ## `enter` -/

@[simp] theorem enter_cfg (x : Exc) (epc : Word) (addr : Option Word) : (s.enter x epc addr).cfg = s.cfg := rfl
@[simp] theorem enter_gpr (x : Exc) (epc : Word) (addr : Option Word) : (s.enter x epc addr).gpr = s.gpr := rfl
@[simp] theorem enter_pc (x : Exc) (epc : Word) (addr : Option Word) : (s.enter x epc addr).pc = s.excVector x := rfl
@[simp] theorem enter_flags (x : Exc) (epc : Word) (addr : Option Word) : (s.enter x epc addr).flags = s.flags := rfl
@[simp] theorem enter_savedFlags (x : Exc) (epc : Word) (addr : Option Word) : (s.enter x epc addr).savedFlags = s.flags := rfl
@[simp] theorem enter_condRest (x : Exc) (epc : Word) (addr : Option Word) : (s.enter x epc addr).condRest = s.condRest := rfl
@[simp] theorem enter_ceh (x : Exc) (epc : Word) (addr : Option Word) : (s.enter x epc addr).ceh = s.ceh := rfl
@[simp] theorem enter_cel (x : Exc) (epc : Word) (addr : Option Word) : (s.enter x epc addr).cel = s.cel := rfl
@[simp] theorem enter_cnt (x : Exc) (epc : Word) (addr : Option Word) : (s.enter x epc addr).cnt = s.cnt := rfl
@[simp] theorem enter_lcr (x : Exc) (epc : Word) (addr : Option Word) : (s.enter x epc addr).lcr = s.lcr := rfl
@[simp] theorem enter_scr (x : Exc) (epc : Word) (addr : Option Word) : (s.enter x epc addr).scr = s.scr := rfl
@[simp] theorem enter_psr (x : Exc) (epc : Word) (addr : Option Word) : (s.enter x epc addr).psr = { s.psr with ums := s.psr.umc, ies := s.psr.iec, umc := false, iec := false } := rfl
@[simp] theorem enter_ecr (x : Exc) (epc : Word) (addr : Option Word) : (s.enter x epc addr).ecr = { s.ecr with excCode := excCode s.cfg x } := rfl
@[simp] theorem enter_excpVec (x : Exc) (epc : Word) (addr : Option Word) : (s.enter x epc addr).excpVec = s.excpVec := rfl
@[simp] theorem enter_ccr (x : Exc) (epc : Word) (addr : Option Word) : (s.enter x epc addr).ccr = s.ccr := rfl
@[simp] theorem enter_epc (x : Exc) (epc : Word) (addr : Option Word) : (s.enter x epc addr).epc = epc := rfl
@[simp] theorem enter_ema (x : Exc) (epc : Word) (addr : Option Word) : (s.enter x epc addr).ema = addr.getD s.ema := rfl
@[simp] theorem enter_limpfn (x : Exc) (epc : Word) (addr : Option Word) : (s.enter x epc addr).limpfn = s.limpfn := rfl
@[simp] theorem enter_ldmpfn (x : Exc) (epc : Word) (addr : Option Word) : (s.enter x epc addr).ldmpfn = s.ldmpfn := rfl
@[simp] theorem enter_prev (x : Exc) (epc : Word) (addr : Option Word) : (s.enter x epc addr).prev = s.prev := rfl
@[simp] theorem enter_dreg (x : Exc) (epc : Word) (addr : Option Word) : (s.enter x epc addr).dreg = s.dreg := rfl
@[simp] theorem enter_depc (x : Exc) (epc : Word) (addr : Option Word) : (s.enter x epc addr).depc = s.depc := rfl
@[simp] theorem enter_dsave (x : Exc) (epc : Word) (addr : Option Word) : (s.enter x epc addr).dsave = s.dsave := rfl
@[simp] theorem enter_cop1 (x : Exc) (epc : Word) (addr : Option Word) : (s.enter x epc addr).cop1 = s.cop1 := rfl
@[simp] theorem enter_cop2 (x : Exc) (epc : Word) (addr : Option Word) : (s.enter x epc addr).cop2 = s.cop2 := rfl
@[simp] theorem enter_cop3 (x : Exc) (epc : Word) (addr : Option Word) : (s.enter x epc addr).cop3 = s.cop3 := rfl
@[simp] theorem enter_sleeping (x : Exc) (epc : Word) (addr : Option Word) : (s.enter x epc addr).sleeping = s.sleeping := rfl
@[simp] theorem enter_inputs (x : Exc) (epc : Word) (addr : Option Word) : (s.enter x epc addr).inputs = s.inputs := rfl
@[simp] theorem enter_mem (x : Exc) (epc : Word) (addr : Option Word) : (s.enter x epc addr).mem = s.mem := rfl
@[simp] theorem enter_free (x : Exc) (epc : Word) (addr : Option Word) : (s.enter x epc addr).free = s.free := rfl

/-! ## `raise` -/

@[simp] theorem raise_cfg (x : Exc) : (s.raise x).cfg = s.cfg := rfl
@[simp] theorem raise_gpr (x : Exc) : (s.raise x).gpr = s.gpr := rfl
@[simp] theorem raise_pc (x : Exc) : (s.raise x).pc = s.excVector x := rfl
@[simp] theorem raise_flags (x : Exc) : (s.raise x).flags = s.flags := rfl
@[simp] theorem raise_savedFlags (x : Exc) : (s.raise x).savedFlags = s.flags := rfl
@[simp] theorem raise_condRest (x : Exc) : (s.raise x).condRest = s.condRest := rfl
@[simp] theorem raise_ceh (x : Exc) : (s.raise x).ceh = s.ceh := rfl
@[simp] theorem raise_cel (x : Exc) : (s.raise x).cel = s.cel := rfl
@[simp] theorem raise_cnt (x : Exc) : (s.raise x).cnt = s.cnt := rfl
@[simp] theorem raise_lcr (x : Exc) : (s.raise x).lcr = s.lcr := rfl
@[simp] theorem raise_scr (x : Exc) : (s.raise x).scr = s.scr := rfl
@[simp] theorem raise_psr (x : Exc) : (s.raise x).psr = { s.psr with ums := s.psr.umc, ies := s.psr.iec, umc := false, iec := false } := rfl
@[simp] theorem raise_ecr (x : Exc) : (s.raise x).ecr = { s.ecr with excCode := excCode s.cfg x } := rfl
@[simp] theorem raise_excpVec (x : Exc) : (s.raise x).excpVec = s.excpVec := rfl
@[simp] theorem raise_ccr (x : Exc) : (s.raise x).ccr = s.ccr := rfl
@[simp] theorem raise_epc (x : Exc) : (s.raise x).epc = s.pc := rfl
@[simp] theorem raise_ema (x : Exc) : (s.raise x).ema = s.ema := rfl
@[simp] theorem raise_limpfn (x : Exc) : (s.raise x).limpfn = s.limpfn := rfl
@[simp] theorem raise_ldmpfn (x : Exc) : (s.raise x).ldmpfn = s.ldmpfn := rfl
@[simp] theorem raise_prev (x : Exc) : (s.raise x).prev = s.prev := rfl
@[simp] theorem raise_dreg (x : Exc) : (s.raise x).dreg = s.dreg := rfl
@[simp] theorem raise_depc (x : Exc) : (s.raise x).depc = s.depc := rfl
@[simp] theorem raise_dsave (x : Exc) : (s.raise x).dsave = s.dsave := rfl
@[simp] theorem raise_cop1 (x : Exc) : (s.raise x).cop1 = s.cop1 := rfl
@[simp] theorem raise_cop2 (x : Exc) : (s.raise x).cop2 = s.cop2 := rfl
@[simp] theorem raise_cop3 (x : Exc) : (s.raise x).cop3 = s.cop3 := rfl
@[simp] theorem raise_sleeping (x : Exc) : (s.raise x).sleeping = s.sleeping := rfl
@[simp] theorem raise_inputs (x : Exc) : (s.raise x).inputs = s.inputs := rfl
@[simp] theorem raise_mem (x : Exc) : (s.raise x).mem = s.mem := rfl
@[simp] theorem raise_free (x : Exc) : (s.raise x).free = s.free := rfl

/-! ## `raiseAt` -/

@[simp] theorem raiseAt_cfg (x : Exc) (addr : Word) : (s.raiseAt x addr).cfg = s.cfg := rfl
@[simp] theorem raiseAt_gpr (x : Exc) (addr : Word) : (s.raiseAt x addr).gpr = s.gpr := rfl
@[simp] theorem raiseAt_pc (x : Exc) (addr : Word) : (s.raiseAt x addr).pc = s.excVector x := rfl
@[simp] theorem raiseAt_flags (x : Exc) (addr : Word) : (s.raiseAt x addr).flags = s.flags := rfl
@[simp] theorem raiseAt_savedFlags (x : Exc) (addr : Word) : (s.raiseAt x addr).savedFlags = s.flags := rfl
@[simp] theorem raiseAt_condRest (x : Exc) (addr : Word) : (s.raiseAt x addr).condRest = s.condRest := rfl
@[simp] theorem raiseAt_ceh (x : Exc) (addr : Word) : (s.raiseAt x addr).ceh = s.ceh := rfl
@[simp] theorem raiseAt_cel (x : Exc) (addr : Word) : (s.raiseAt x addr).cel = s.cel := rfl
@[simp] theorem raiseAt_cnt (x : Exc) (addr : Word) : (s.raiseAt x addr).cnt = s.cnt := rfl
@[simp] theorem raiseAt_lcr (x : Exc) (addr : Word) : (s.raiseAt x addr).lcr = s.lcr := rfl
@[simp] theorem raiseAt_scr (x : Exc) (addr : Word) : (s.raiseAt x addr).scr = s.scr := rfl
@[simp] theorem raiseAt_psr (x : Exc) (addr : Word) : (s.raiseAt x addr).psr = { s.psr with ums := s.psr.umc, ies := s.psr.iec, umc := false, iec := false } := rfl
@[simp] theorem raiseAt_ecr (x : Exc) (addr : Word) : (s.raiseAt x addr).ecr = { s.ecr with excCode := excCode s.cfg x } := rfl
@[simp] theorem raiseAt_excpVec (x : Exc) (addr : Word) : (s.raiseAt x addr).excpVec = s.excpVec := rfl
@[simp] theorem raiseAt_ccr (x : Exc) (addr : Word) : (s.raiseAt x addr).ccr = s.ccr := rfl
@[simp] theorem raiseAt_epc (x : Exc) (addr : Word) : (s.raiseAt x addr).epc = s.pc := rfl
@[simp] theorem raiseAt_ema (x : Exc) (addr : Word) : (s.raiseAt x addr).ema = addr := rfl
@[simp] theorem raiseAt_limpfn (x : Exc) (addr : Word) : (s.raiseAt x addr).limpfn = s.limpfn := rfl
@[simp] theorem raiseAt_ldmpfn (x : Exc) (addr : Word) : (s.raiseAt x addr).ldmpfn = s.ldmpfn := rfl
@[simp] theorem raiseAt_prev (x : Exc) (addr : Word) : (s.raiseAt x addr).prev = s.prev := rfl
@[simp] theorem raiseAt_dreg (x : Exc) (addr : Word) : (s.raiseAt x addr).dreg = s.dreg := rfl
@[simp] theorem raiseAt_depc (x : Exc) (addr : Word) : (s.raiseAt x addr).depc = s.depc := rfl
@[simp] theorem raiseAt_dsave (x : Exc) (addr : Word) : (s.raiseAt x addr).dsave = s.dsave := rfl
@[simp] theorem raiseAt_cop1 (x : Exc) (addr : Word) : (s.raiseAt x addr).cop1 = s.cop1 := rfl
@[simp] theorem raiseAt_cop2 (x : Exc) (addr : Word) : (s.raiseAt x addr).cop2 = s.cop2 := rfl
@[simp] theorem raiseAt_cop3 (x : Exc) (addr : Word) : (s.raiseAt x addr).cop3 = s.cop3 := rfl
@[simp] theorem raiseAt_sleeping (x : Exc) (addr : Word) : (s.raiseAt x addr).sleeping = s.sleeping := rfl
@[simp] theorem raiseAt_inputs (x : Exc) (addr : Word) : (s.raiseAt x addr).inputs = s.inputs := rfl
@[simp] theorem raiseAt_mem (x : Exc) (addr : Word) : (s.raiseAt x addr).mem = s.mem := rfl
@[simp] theorem raiseAt_free (x : Exc) (addr : Word) : (s.raiseAt x addr).free = s.free := rfl

/-! ## `returnFromException` -/

@[simp] theorem returnFromException_cfg : s.returnFromException.cfg = s.cfg := rfl
@[simp] theorem returnFromException_gpr : s.returnFromException.gpr = s.gpr := rfl
@[simp] theorem returnFromException_pc : s.returnFromException.pc = s.epc := rfl
@[simp] theorem returnFromException_flags : s.returnFromException.flags = s.savedFlags := rfl
@[simp] theorem returnFromException_savedFlags : s.returnFromException.savedFlags = s.savedFlags := rfl
@[simp] theorem returnFromException_condRest : s.returnFromException.condRest = s.condRest := rfl
@[simp] theorem returnFromException_ceh : s.returnFromException.ceh = s.ceh := rfl
@[simp] theorem returnFromException_cel : s.returnFromException.cel = s.cel := rfl
@[simp] theorem returnFromException_cnt : s.returnFromException.cnt = s.cnt := rfl
@[simp] theorem returnFromException_lcr : s.returnFromException.lcr = s.lcr := rfl
@[simp] theorem returnFromException_scr : s.returnFromException.scr = s.scr := rfl
@[simp] theorem returnFromException_psr : s.returnFromException.psr = { s.psr with umc := s.psr.ums, iec := s.psr.ies } := rfl
@[simp] theorem returnFromException_ecr : s.returnFromException.ecr = s.ecr := rfl
@[simp] theorem returnFromException_excpVec : s.returnFromException.excpVec = s.excpVec := rfl
@[simp] theorem returnFromException_ccr : s.returnFromException.ccr = s.ccr := rfl
@[simp] theorem returnFromException_epc : s.returnFromException.epc = s.epc := rfl
@[simp] theorem returnFromException_ema : s.returnFromException.ema = s.ema := rfl
@[simp] theorem returnFromException_limpfn : s.returnFromException.limpfn = s.limpfn := rfl
@[simp] theorem returnFromException_ldmpfn : s.returnFromException.ldmpfn = s.ldmpfn := rfl
@[simp] theorem returnFromException_prev : s.returnFromException.prev = s.prev := rfl
@[simp] theorem returnFromException_dreg : s.returnFromException.dreg = s.dreg := rfl
@[simp] theorem returnFromException_depc : s.returnFromException.depc = s.depc := rfl
@[simp] theorem returnFromException_dsave : s.returnFromException.dsave = s.dsave := rfl
@[simp] theorem returnFromException_cop1 : s.returnFromException.cop1 = s.cop1 := rfl
@[simp] theorem returnFromException_cop2 : s.returnFromException.cop2 = s.cop2 := rfl
@[simp] theorem returnFromException_cop3 : s.returnFromException.cop3 = s.cop3 := rfl
@[simp] theorem returnFromException_sleeping : s.returnFromException.sleeping = s.sleeping := rfl
@[simp] theorem returnFromException_inputs : s.returnFromException.inputs = s.inputs := rfl
@[simp] theorem returnFromException_mem : s.returnFromException.mem = s.mem := rfl
@[simp] theorem returnFromException_free : s.returnFromException.free = s.free := rfl

/-! ## `debugEnter` -/

@[simp] theorem debugEnter_cfg (dbp brkSt : Bool) : (s.debugEnter dbp brkSt).cfg = s.cfg := rfl
@[simp] theorem debugEnter_gpr (dbp brkSt : Bool) : (s.debugEnter dbp brkSt).gpr = s.gpr := rfl
@[simp] theorem debugEnter_pc (dbp brkSt : Bool) : (s.debugEnter dbp brkSt).pc = s.debugVector := rfl
@[simp] theorem debugEnter_flags (dbp brkSt : Bool) : (s.debugEnter dbp brkSt).flags = s.flags := rfl
@[simp] theorem debugEnter_savedFlags (dbp brkSt : Bool) : (s.debugEnter dbp brkSt).savedFlags = s.savedFlags := rfl
@[simp] theorem debugEnter_condRest (dbp brkSt : Bool) : (s.debugEnter dbp brkSt).condRest = s.condRest := rfl
@[simp] theorem debugEnter_ceh (dbp brkSt : Bool) : (s.debugEnter dbp brkSt).ceh = s.ceh := rfl
@[simp] theorem debugEnter_cel (dbp brkSt : Bool) : (s.debugEnter dbp brkSt).cel = s.cel := rfl
@[simp] theorem debugEnter_cnt (dbp brkSt : Bool) : (s.debugEnter dbp brkSt).cnt = s.cnt := rfl
@[simp] theorem debugEnter_lcr (dbp brkSt : Bool) : (s.debugEnter dbp brkSt).lcr = s.lcr := rfl
@[simp] theorem debugEnter_scr (dbp brkSt : Bool) : (s.debugEnter dbp brkSt).scr = s.scr := rfl
@[simp] theorem debugEnter_psr (dbp brkSt : Bool) : (s.debugEnter dbp brkSt).psr = s.psr := rfl
@[simp] theorem debugEnter_ecr (dbp brkSt : Bool) : (s.debugEnter dbp brkSt).ecr = s.ecr := rfl
@[simp] theorem debugEnter_excpVec (dbp brkSt : Bool) : (s.debugEnter dbp brkSt).excpVec = s.excpVec := rfl
@[simp] theorem debugEnter_ccr (dbp brkSt : Bool) : (s.debugEnter dbp brkSt).ccr = s.ccr := rfl
@[simp] theorem debugEnter_epc (dbp brkSt : Bool) : (s.debugEnter dbp brkSt).epc = s.epc := rfl
@[simp] theorem debugEnter_ema (dbp brkSt : Bool) : (s.debugEnter dbp brkSt).ema = s.ema := rfl
@[simp] theorem debugEnter_limpfn (dbp brkSt : Bool) : (s.debugEnter dbp brkSt).limpfn = s.limpfn := rfl
@[simp] theorem debugEnter_ldmpfn (dbp brkSt : Bool) : (s.debugEnter dbp brkSt).ldmpfn = s.ldmpfn := rfl
@[simp] theorem debugEnter_prev (dbp brkSt : Bool) : (s.debugEnter dbp brkSt).prev = s.prev := rfl
@[simp] theorem debugEnter_dreg (dbp brkSt : Bool) : (s.debugEnter dbp brkSt).dreg = { s.dreg with dm := true, dbp := s.dreg.dbp || dbp, brkSt := s.dreg.brkSt || brkSt } := rfl
@[simp] theorem debugEnter_depc (dbp brkSt : Bool) : (s.debugEnter dbp brkSt).depc = s.pc := rfl
@[simp] theorem debugEnter_dsave (dbp brkSt : Bool) : (s.debugEnter dbp brkSt).dsave = s.dsave := rfl
@[simp] theorem debugEnter_cop1 (dbp brkSt : Bool) : (s.debugEnter dbp brkSt).cop1 = s.cop1 := rfl
@[simp] theorem debugEnter_cop2 (dbp brkSt : Bool) : (s.debugEnter dbp brkSt).cop2 = s.cop2 := rfl
@[simp] theorem debugEnter_cop3 (dbp brkSt : Bool) : (s.debugEnter dbp brkSt).cop3 = s.cop3 := rfl
@[simp] theorem debugEnter_sleeping (dbp brkSt : Bool) : (s.debugEnter dbp brkSt).sleeping = s.sleeping := rfl
@[simp] theorem debugEnter_inputs (dbp brkSt : Bool) : (s.debugEnter dbp brkSt).inputs = s.inputs := rfl
@[simp] theorem debugEnter_mem (dbp brkSt : Bool) : (s.debugEnter dbp brkSt).mem = s.mem := rfl
@[simp] theorem debugEnter_free (dbp brkSt : Bool) : (s.debugEnter dbp brkSt).free = s.free := rfl

/-! ## `returnFromDebug` -/

@[simp] theorem returnFromDebug_cfg : s.returnFromDebug.cfg = s.cfg := rfl
@[simp] theorem returnFromDebug_gpr : s.returnFromDebug.gpr = s.gpr := rfl
@[simp] theorem returnFromDebug_pc : s.returnFromDebug.pc = s.depc := rfl
@[simp] theorem returnFromDebug_flags : s.returnFromDebug.flags = s.flags := rfl
@[simp] theorem returnFromDebug_savedFlags : s.returnFromDebug.savedFlags = s.savedFlags := rfl
@[simp] theorem returnFromDebug_condRest : s.returnFromDebug.condRest = s.condRest := rfl
@[simp] theorem returnFromDebug_ceh : s.returnFromDebug.ceh = s.ceh := rfl
@[simp] theorem returnFromDebug_cel : s.returnFromDebug.cel = s.cel := rfl
@[simp] theorem returnFromDebug_cnt : s.returnFromDebug.cnt = s.cnt := rfl
@[simp] theorem returnFromDebug_lcr : s.returnFromDebug.lcr = s.lcr := rfl
@[simp] theorem returnFromDebug_scr : s.returnFromDebug.scr = s.scr := rfl
@[simp] theorem returnFromDebug_psr : s.returnFromDebug.psr = s.psr := rfl
@[simp] theorem returnFromDebug_ecr : s.returnFromDebug.ecr = s.ecr := rfl
@[simp] theorem returnFromDebug_excpVec : s.returnFromDebug.excpVec = s.excpVec := rfl
@[simp] theorem returnFromDebug_ccr : s.returnFromDebug.ccr = s.ccr := rfl
@[simp] theorem returnFromDebug_epc : s.returnFromDebug.epc = s.epc := rfl
@[simp] theorem returnFromDebug_ema : s.returnFromDebug.ema = s.ema := rfl
@[simp] theorem returnFromDebug_limpfn : s.returnFromDebug.limpfn = s.limpfn := rfl
@[simp] theorem returnFromDebug_ldmpfn : s.returnFromDebug.ldmpfn = s.ldmpfn := rfl
@[simp] theorem returnFromDebug_prev : s.returnFromDebug.prev = s.prev := rfl
@[simp] theorem returnFromDebug_dreg : s.returnFromDebug.dreg = { s.dreg with dm := false } := rfl
@[simp] theorem returnFromDebug_depc : s.returnFromDebug.depc = s.depc := rfl
@[simp] theorem returnFromDebug_dsave : s.returnFromDebug.dsave = s.dsave := rfl
@[simp] theorem returnFromDebug_cop1 : s.returnFromDebug.cop1 = s.cop1 := rfl
@[simp] theorem returnFromDebug_cop2 : s.returnFromDebug.cop2 = s.cop2 := rfl
@[simp] theorem returnFromDebug_cop3 : s.returnFromDebug.cop3 = s.cop3 := rfl
@[simp] theorem returnFromDebug_sleeping : s.returnFromDebug.sleeping = s.sleeping := rfl
@[simp] theorem returnFromDebug_inputs : s.returnFromDebug.inputs = s.inputs := rfl
@[simp] theorem returnFromDebug_mem : s.returnFromDebug.mem = s.mem := rfl
@[simp] theorem returnFromDebug_free : s.returnFromDebug.free = s.free := rfl

/-! ## `setCondition` -/

@[simp] theorem setCondition_cfg (w : Word) : (s.setCondition w).cfg = s.cfg := rfl
@[simp] theorem setCondition_gpr (w : Word) : (s.setCondition w).gpr = s.gpr := rfl
@[simp] theorem setCondition_pc (w : Word) : (s.setCondition w).pc = s.pc := rfl
@[simp] theorem setCondition_flags (w : Word) : (s.setCondition w).flags = flagsOfImage s.cfg.layout.current w := rfl
@[simp] theorem setCondition_savedFlags (w : Word) : (s.setCondition w).savedFlags = flagsOfImage s.cfg.layout.saved w := rfl
@[simp] theorem setCondition_condRest (w : Word) : (s.setCondition w).condRest = w &&& ~~~(fieldMask (flagPlaces s.cfg.layout.current) ||| fieldMask (flagPlaces s.cfg.layout.saved)) := rfl
@[simp] theorem setCondition_ceh (w : Word) : (s.setCondition w).ceh = s.ceh := rfl
@[simp] theorem setCondition_cel (w : Word) : (s.setCondition w).cel = s.cel := rfl
@[simp] theorem setCondition_cnt (w : Word) : (s.setCondition w).cnt = s.cnt := rfl
@[simp] theorem setCondition_lcr (w : Word) : (s.setCondition w).lcr = s.lcr := rfl
@[simp] theorem setCondition_scr (w : Word) : (s.setCondition w).scr = s.scr := rfl
@[simp] theorem setCondition_psr (w : Word) : (s.setCondition w).psr = s.psr := rfl
@[simp] theorem setCondition_ecr (w : Word) : (s.setCondition w).ecr = s.ecr := rfl
@[simp] theorem setCondition_excpVec (w : Word) : (s.setCondition w).excpVec = s.excpVec := rfl
@[simp] theorem setCondition_ccr (w : Word) : (s.setCondition w).ccr = s.ccr := rfl
@[simp] theorem setCondition_epc (w : Word) : (s.setCondition w).epc = s.epc := rfl
@[simp] theorem setCondition_ema (w : Word) : (s.setCondition w).ema = s.ema := rfl
@[simp] theorem setCondition_limpfn (w : Word) : (s.setCondition w).limpfn = s.limpfn := rfl
@[simp] theorem setCondition_ldmpfn (w : Word) : (s.setCondition w).ldmpfn = s.ldmpfn := rfl
@[simp] theorem setCondition_prev (w : Word) : (s.setCondition w).prev = s.prev := rfl
@[simp] theorem setCondition_dreg (w : Word) : (s.setCondition w).dreg = s.dreg := rfl
@[simp] theorem setCondition_depc (w : Word) : (s.setCondition w).depc = s.depc := rfl
@[simp] theorem setCondition_dsave (w : Word) : (s.setCondition w).dsave = s.dsave := rfl
@[simp] theorem setCondition_cop1 (w : Word) : (s.setCondition w).cop1 = s.cop1 := rfl
@[simp] theorem setCondition_cop2 (w : Word) : (s.setCondition w).cop2 = s.cop2 := rfl
@[simp] theorem setCondition_cop3 (w : Word) : (s.setCondition w).cop3 = s.cop3 := rfl
@[simp] theorem setCondition_sleeping (w : Word) : (s.setCondition w).sleeping = s.sleeping := rfl
@[simp] theorem setCondition_inputs (w : Word) : (s.setCondition w).inputs = s.inputs := rfl
@[simp] theorem setCondition_mem (w : Word) : (s.setCondition w).mem = s.mem := rfl
@[simp] theorem setCondition_free (w : Word) : (s.setCondition w).free = s.free := rfl

/-! ## `setEcr` -/

@[simp] theorem setEcr_cfg (w : Word) : (s.setEcr w).cfg = s.cfg := rfl
@[simp] theorem setEcr_gpr (w : Word) : (s.setEcr w).gpr = s.gpr := rfl
@[simp] theorem setEcr_pc (w : Word) : (s.setEcr w).pc = s.pc := rfl
@[simp] theorem setEcr_flags (w : Word) : (s.setEcr w).flags = s.flags := rfl
@[simp] theorem setEcr_savedFlags (w : Word) : (s.setEcr w).savedFlags = s.savedFlags := rfl
@[simp] theorem setEcr_condRest (w : Word) : (s.setEcr w).condRest = s.condRest := rfl
@[simp] theorem setEcr_ceh (w : Word) : (s.setEcr w).ceh = s.ceh := rfl
@[simp] theorem setEcr_cel (w : Word) : (s.setEcr w).cel = s.cel := rfl
@[simp] theorem setEcr_cnt (w : Word) : (s.setEcr w).cnt = s.cnt := rfl
@[simp] theorem setEcr_lcr (w : Word) : (s.setEcr w).lcr = s.lcr := rfl
@[simp] theorem setEcr_scr (w : Word) : (s.setEcr w).scr = s.scr := rfl
@[simp] theorem setEcr_psr (w : Word) : (s.setEcr w).psr = s.psr := rfl
@[simp] theorem setEcr_excpVec (w : Word) : (s.setEcr w).excpVec = s.excpVec := rfl
@[simp] theorem setEcr_ccr (w : Word) : (s.setEcr w).ccr = s.ccr := rfl
@[simp] theorem setEcr_epc (w : Word) : (s.setEcr w).epc = s.epc := rfl
@[simp] theorem setEcr_ema (w : Word) : (s.setEcr w).ema = s.ema := rfl
@[simp] theorem setEcr_limpfn (w : Word) : (s.setEcr w).limpfn = s.limpfn := rfl
@[simp] theorem setEcr_ldmpfn (w : Word) : (s.setEcr w).ldmpfn = s.ldmpfn := rfl
@[simp] theorem setEcr_prev (w : Word) : (s.setEcr w).prev = s.prev := rfl
@[simp] theorem setEcr_dreg (w : Word) : (s.setEcr w).dreg = s.dreg := rfl
@[simp] theorem setEcr_depc (w : Word) : (s.setEcr w).depc = s.depc := rfl
@[simp] theorem setEcr_dsave (w : Word) : (s.setEcr w).dsave = s.dsave := rfl
@[simp] theorem setEcr_cop1 (w : Word) : (s.setEcr w).cop1 = s.cop1 := rfl
@[simp] theorem setEcr_cop2 (w : Word) : (s.setEcr w).cop2 = s.cop2 := rfl
@[simp] theorem setEcr_cop3 (w : Word) : (s.setEcr w).cop3 = s.cop3 := rfl
@[simp] theorem setEcr_sleeping (w : Word) : (s.setEcr w).sleeping = s.sleeping := rfl
@[simp] theorem setEcr_inputs (w : Word) : (s.setEcr w).inputs = s.inputs := rfl
@[simp] theorem setEcr_mem (w : Word) : (s.setEcr w).mem = s.mem := rfl
@[simp] theorem setEcr_free (w : Word) : (s.setEcr w).free = s.free := rfl

/-! ## `tick` -/

@[simp] theorem tick_cfg : s.tick.cfg = s.cfg := rfl
@[simp] theorem tick_gpr : s.tick.gpr = s.gpr := rfl
@[simp] theorem tick_pc : s.tick.pc = s.pc := rfl
@[simp] theorem tick_flags : s.tick.flags = s.flags := rfl
@[simp] theorem tick_savedFlags : s.tick.savedFlags = s.savedFlags := rfl
@[simp] theorem tick_condRest : s.tick.condRest = s.condRest := rfl
@[simp] theorem tick_ceh : s.tick.ceh = s.ceh := rfl
@[simp] theorem tick_cel : s.tick.cel = s.cel := rfl
@[simp] theorem tick_cnt : s.tick.cnt = s.cnt := rfl
@[simp] theorem tick_lcr : s.tick.lcr = s.lcr := rfl
@[simp] theorem tick_scr : s.tick.scr = s.scr := rfl
@[simp] theorem tick_psr : s.tick.psr = s.psr := rfl
@[simp] theorem tick_ecr : s.tick.ecr = s.ecr := rfl
@[simp] theorem tick_excpVec : s.tick.excpVec = s.excpVec := rfl
@[simp] theorem tick_ccr : s.tick.ccr = s.ccr := rfl
@[simp] theorem tick_epc : s.tick.epc = s.epc := rfl
@[simp] theorem tick_ema : s.tick.ema = s.ema := rfl
@[simp] theorem tick_limpfn : s.tick.limpfn = s.limpfn := rfl
@[simp] theorem tick_ldmpfn : s.tick.ldmpfn = s.ldmpfn := rfl
@[simp] theorem tick_prev : s.tick.prev = s.prev := rfl
@[simp] theorem tick_dreg : s.tick.dreg = s.dreg := rfl
@[simp] theorem tick_depc : s.tick.depc = s.depc := rfl
@[simp] theorem tick_dsave : s.tick.dsave = s.dsave := rfl
@[simp] theorem tick_cop1 : s.tick.cop1 = s.cop1 := rfl
@[simp] theorem tick_cop2 : s.tick.cop2 = s.cop2 := rfl
@[simp] theorem tick_cop3 : s.tick.cop3 = s.cop3 := rfl
@[simp] theorem tick_sleeping : s.tick.sleeping = s.sleeping := rfl
@[simp] theorem tick_inputs : s.tick.inputs = s.inputs.tail := rfl
@[simp] theorem tick_mem : s.tick.mem = s.mem := rfl
@[simp] theorem tick_free : s.tick.free = s.free := rfl

/-! ## `setLoadedBase` -/

@[simp] theorem setLoadedBase_cfg (rd ra : Reg) (v base : Word) : (s.setLoadedBase rd ra v base).cfg = s.cfg := by
  unfold State.setLoadedBase; split <;> rfl
@[simp] theorem setLoadedBase_pc (rd ra : Reg) (v base : Word) : (s.setLoadedBase rd ra v base).pc = s.pc := by
  unfold State.setLoadedBase; split <;> rfl
@[simp] theorem setLoadedBase_flags (rd ra : Reg) (v base : Word) : (s.setLoadedBase rd ra v base).flags = s.flags := by
  unfold State.setLoadedBase; split <;> rfl
@[simp] theorem setLoadedBase_savedFlags (rd ra : Reg) (v base : Word) : (s.setLoadedBase rd ra v base).savedFlags = s.savedFlags := by
  unfold State.setLoadedBase; split <;> rfl
@[simp] theorem setLoadedBase_condRest (rd ra : Reg) (v base : Word) : (s.setLoadedBase rd ra v base).condRest = s.condRest := by
  unfold State.setLoadedBase; split <;> rfl
@[simp] theorem setLoadedBase_ceh (rd ra : Reg) (v base : Word) : (s.setLoadedBase rd ra v base).ceh = s.ceh := by
  unfold State.setLoadedBase; split <;> rfl
@[simp] theorem setLoadedBase_cel (rd ra : Reg) (v base : Word) : (s.setLoadedBase rd ra v base).cel = s.cel := by
  unfold State.setLoadedBase; split <;> rfl
@[simp] theorem setLoadedBase_cnt (rd ra : Reg) (v base : Word) : (s.setLoadedBase rd ra v base).cnt = s.cnt := by
  unfold State.setLoadedBase; split <;> rfl
@[simp] theorem setLoadedBase_lcr (rd ra : Reg) (v base : Word) : (s.setLoadedBase rd ra v base).lcr = s.lcr := by
  unfold State.setLoadedBase; split <;> rfl
@[simp] theorem setLoadedBase_scr (rd ra : Reg) (v base : Word) : (s.setLoadedBase rd ra v base).scr = s.scr := by
  unfold State.setLoadedBase; split <;> rfl
@[simp] theorem setLoadedBase_psr (rd ra : Reg) (v base : Word) : (s.setLoadedBase rd ra v base).psr = s.psr := by
  unfold State.setLoadedBase; split <;> rfl
@[simp] theorem setLoadedBase_ecr (rd ra : Reg) (v base : Word) : (s.setLoadedBase rd ra v base).ecr = s.ecr := by
  unfold State.setLoadedBase; split <;> rfl
@[simp] theorem setLoadedBase_excpVec (rd ra : Reg) (v base : Word) : (s.setLoadedBase rd ra v base).excpVec = s.excpVec := by
  unfold State.setLoadedBase; split <;> rfl
@[simp] theorem setLoadedBase_ccr (rd ra : Reg) (v base : Word) : (s.setLoadedBase rd ra v base).ccr = s.ccr := by
  unfold State.setLoadedBase; split <;> rfl
@[simp] theorem setLoadedBase_epc (rd ra : Reg) (v base : Word) : (s.setLoadedBase rd ra v base).epc = s.epc := by
  unfold State.setLoadedBase; split <;> rfl
@[simp] theorem setLoadedBase_ema (rd ra : Reg) (v base : Word) : (s.setLoadedBase rd ra v base).ema = s.ema := by
  unfold State.setLoadedBase; split <;> rfl
@[simp] theorem setLoadedBase_limpfn (rd ra : Reg) (v base : Word) : (s.setLoadedBase rd ra v base).limpfn = s.limpfn := by
  unfold State.setLoadedBase; split <;> rfl
@[simp] theorem setLoadedBase_ldmpfn (rd ra : Reg) (v base : Word) : (s.setLoadedBase rd ra v base).ldmpfn = s.ldmpfn := by
  unfold State.setLoadedBase; split <;> rfl
@[simp] theorem setLoadedBase_prev (rd ra : Reg) (v base : Word) : (s.setLoadedBase rd ra v base).prev = s.prev := by
  unfold State.setLoadedBase; split <;> rfl
@[simp] theorem setLoadedBase_dreg (rd ra : Reg) (v base : Word) : (s.setLoadedBase rd ra v base).dreg = s.dreg := by
  unfold State.setLoadedBase; split <;> rfl
@[simp] theorem setLoadedBase_depc (rd ra : Reg) (v base : Word) : (s.setLoadedBase rd ra v base).depc = s.depc := by
  unfold State.setLoadedBase; split <;> rfl
@[simp] theorem setLoadedBase_dsave (rd ra : Reg) (v base : Word) : (s.setLoadedBase rd ra v base).dsave = s.dsave := by
  unfold State.setLoadedBase; split <;> rfl
@[simp] theorem setLoadedBase_cop1 (rd ra : Reg) (v base : Word) : (s.setLoadedBase rd ra v base).cop1 = s.cop1 := by
  unfold State.setLoadedBase; split <;> rfl
@[simp] theorem setLoadedBase_cop2 (rd ra : Reg) (v base : Word) : (s.setLoadedBase rd ra v base).cop2 = s.cop2 := by
  unfold State.setLoadedBase; split <;> rfl
@[simp] theorem setLoadedBase_cop3 (rd ra : Reg) (v base : Word) : (s.setLoadedBase rd ra v base).cop3 = s.cop3 := by
  unfold State.setLoadedBase; split <;> rfl
@[simp] theorem setLoadedBase_sleeping (rd ra : Reg) (v base : Word) : (s.setLoadedBase rd ra v base).sleeping = s.sleeping := by
  unfold State.setLoadedBase; split <;> rfl
@[simp] theorem setLoadedBase_inputs (rd ra : Reg) (v base : Word) : (s.setLoadedBase rd ra v base).inputs = s.inputs := by
  unfold State.setLoadedBase; split <;> rfl
@[simp] theorem setLoadedBase_mem (rd ra : Reg) (v base : Word) : (s.setLoadedBase rd ra v base).mem = s.mem := by
  unfold State.setLoadedBase; split <;> rfl

/-! ## `setCop` -/

@[simp] theorem setCop_cfg (n : BitVec 2) (f : CopFile) : (s.setCop n f).cfg = s.cfg := by
  unfold State.setCop; split <;> rfl
@[simp] theorem setCop_gpr (n : BitVec 2) (f : CopFile) : (s.setCop n f).gpr = s.gpr := by
  unfold State.setCop; split <;> rfl
@[simp] theorem setCop_pc (n : BitVec 2) (f : CopFile) : (s.setCop n f).pc = s.pc := by
  unfold State.setCop; split <;> rfl
@[simp] theorem setCop_flags (n : BitVec 2) (f : CopFile) : (s.setCop n f).flags = s.flags := by
  unfold State.setCop; split <;> rfl
@[simp] theorem setCop_savedFlags (n : BitVec 2) (f : CopFile) : (s.setCop n f).savedFlags = s.savedFlags := by
  unfold State.setCop; split <;> rfl
@[simp] theorem setCop_condRest (n : BitVec 2) (f : CopFile) : (s.setCop n f).condRest = s.condRest := by
  unfold State.setCop; split <;> rfl
@[simp] theorem setCop_ceh (n : BitVec 2) (f : CopFile) : (s.setCop n f).ceh = s.ceh := by
  unfold State.setCop; split <;> rfl
@[simp] theorem setCop_cel (n : BitVec 2) (f : CopFile) : (s.setCop n f).cel = s.cel := by
  unfold State.setCop; split <;> rfl
@[simp] theorem setCop_cnt (n : BitVec 2) (f : CopFile) : (s.setCop n f).cnt = s.cnt := by
  unfold State.setCop; split <;> rfl
@[simp] theorem setCop_lcr (n : BitVec 2) (f : CopFile) : (s.setCop n f).lcr = s.lcr := by
  unfold State.setCop; split <;> rfl
@[simp] theorem setCop_scr (n : BitVec 2) (f : CopFile) : (s.setCop n f).scr = s.scr := by
  unfold State.setCop; split <;> rfl
@[simp] theorem setCop_psr (n : BitVec 2) (f : CopFile) : (s.setCop n f).psr = s.psr := by
  unfold State.setCop; split <;> rfl
@[simp] theorem setCop_ecr (n : BitVec 2) (f : CopFile) : (s.setCop n f).ecr = s.ecr := by
  unfold State.setCop; split <;> rfl
@[simp] theorem setCop_excpVec (n : BitVec 2) (f : CopFile) : (s.setCop n f).excpVec = s.excpVec := by
  unfold State.setCop; split <;> rfl
@[simp] theorem setCop_ccr (n : BitVec 2) (f : CopFile) : (s.setCop n f).ccr = s.ccr := by
  unfold State.setCop; split <;> rfl
@[simp] theorem setCop_epc (n : BitVec 2) (f : CopFile) : (s.setCop n f).epc = s.epc := by
  unfold State.setCop; split <;> rfl
@[simp] theorem setCop_ema (n : BitVec 2) (f : CopFile) : (s.setCop n f).ema = s.ema := by
  unfold State.setCop; split <;> rfl
@[simp] theorem setCop_limpfn (n : BitVec 2) (f : CopFile) : (s.setCop n f).limpfn = s.limpfn := by
  unfold State.setCop; split <;> rfl
@[simp] theorem setCop_ldmpfn (n : BitVec 2) (f : CopFile) : (s.setCop n f).ldmpfn = s.ldmpfn := by
  unfold State.setCop; split <;> rfl
@[simp] theorem setCop_prev (n : BitVec 2) (f : CopFile) : (s.setCop n f).prev = s.prev := by
  unfold State.setCop; split <;> rfl
@[simp] theorem setCop_dreg (n : BitVec 2) (f : CopFile) : (s.setCop n f).dreg = s.dreg := by
  unfold State.setCop; split <;> rfl
@[simp] theorem setCop_depc (n : BitVec 2) (f : CopFile) : (s.setCop n f).depc = s.depc := by
  unfold State.setCop; split <;> rfl
@[simp] theorem setCop_dsave (n : BitVec 2) (f : CopFile) : (s.setCop n f).dsave = s.dsave := by
  unfold State.setCop; split <;> rfl
@[simp] theorem setCop_sleeping (n : BitVec 2) (f : CopFile) : (s.setCop n f).sleeping = s.sleeping := by
  unfold State.setCop; split <;> rfl
@[simp] theorem setCop_inputs (n : BitVec 2) (f : CopFile) : (s.setCop n f).inputs = s.inputs := by
  unfold State.setCop; split <;> rfl
@[simp] theorem setCop_mem (n : BitVec 2) (f : CopFile) : (s.setCop n f).mem = s.mem := by
  unfold State.setCop; split <;> rfl
@[simp] theorem setCop_free (n : BitVec 2) (f : CopFile) : (s.setCop n f).free = s.free := by
  unfold State.setCop; split <;> rfl

end Sys2Proof.Machine
end

