-- ==== Sys2Proof/Laws/Memory.lean ====
section
/-! SUPPORT. The laws of memory: what a write changes, and that every memory operation keeps the canonical form. -/

namespace Sys2Proof.Machine

/-! ## The canonical form -/

theorem wfFrom_mono {lo lo' : Nat} (h : lo' ≤ lo) : ∀ {m : List Host.Cell}, Memory.wfFrom lo m = true → Memory.wfFrom lo' m = true
  | [], _ => rfl
  | (_, _) :: _, hm => by
    simp only [Memory.wfFrom, Bool.and_eq_true, decide_eq_true_eq] at hm ⊢
    exact ⟨⟨⟨by omega, hm.1.1.2⟩, hm.1.2⟩, hm.2⟩

/-- Writing a byte keeps the canonical form. -/
theorem writeByte_wfFrom {lo a : Nat} {b : Byte} (hl : lo ≤ a) (ha : a < 2 ^ 32) :
    ∀ {m : List Host.Cell}, Memory.wfFrom lo m = true → Memory.wfFrom lo (writeByte m a b) = true := by
  intro m
  induction m generalizing lo with
  | nil =>
    intro _
    by_cases hb : b = unlistedByte
    · simp [writeByte, Memory.wfFrom, hb]
    · simp [writeByte, Memory.wfFrom, hb, hl]; omega
  | cons c rest ih =>
    obtain ⟨k, v⟩ := c
    intro hm
    simp only [Memory.wfFrom, Bool.and_eq_true, decide_eq_true_eq] at hm
    obtain ⟨⟨⟨h1, h2⟩, h3⟩, h4⟩ := hm
    unfold writeByte
    split
    · split
      · simp [Memory.wfFrom, h1, h3, h4]; omega
      · rename_i hak hb
        simp [Memory.wfFrom, hl, hb, h3, h4]; omega
    · split
      · subst_vars
        split
        · exact wfFrom_mono (by omega) h4
        · rename_i hb
          simp [Memory.wfFrom, hl, hb, h4]; omega
      · simp only [Memory.wfFrom, Bool.and_eq_true, decide_eq_true_eq]
        exact ⟨⟨⟨h1, h2⟩, h3⟩, ih (by omega) h4⟩

/-- Writing bytes keeps the canonical form. -/
theorem writeBytes_wf {m : List Host.Cell} {a : Word} {bs : List Byte} (h : Memory.wf m = true) :
    Memory.wf (writeBytes m a bs) = true := by
  induction bs generalizing m a with
  | nil => exact h
  | cons b bs ih => exact ih (writeByte_wfFrom (Nat.zero_le _) a.isLt h)

/-! ## Reading after a write -/

/-- An address below every listed one reads as an unlisted byte. -/
theorem readByte_below {lo a : Nat} (h : a < lo) :
    ∀ {m : List Host.Cell}, Memory.wfFrom lo m = true → readByte m a = unlistedByte
  | [], _ => rfl
  | (k, v) :: rest, hm => by
    simp only [Memory.wfFrom, Bool.and_eq_true, decide_eq_true_eq] at hm
    have : a ≠ k := by omega
    have : a < k := by omega
    simp [readByte, *]

/-- The byte at an address after a write of one byte. -/
theorem readByte_writeByte {lo a : Nat} {b : Byte} (x : Nat) :
    ∀ {m : List Host.Cell}, Memory.wfFrom lo m = true →
      readByte (writeByte m a b) x = if x = a then b else readByte m x := by
  intro m
  induction m generalizing lo with
  | nil =>
    intro _
    by_cases hb : b = unlistedByte <;> by_cases hx : x = a <;> simp [writeByte, readByte, hb, hx]
  | cons c rest ih =>
    obtain ⟨k, v⟩ := c
    intro hm
    simp only [Memory.wfFrom, Bool.and_eq_true, decide_eq_true_eq] at hm
    obtain ⟨-, h4⟩ := hm
    unfold writeByte
    split
    · rename_i hak
      split
      · rename_i hb
        by_cases hx : x = a
        · have : a ≠ k := by omega
          simp [readByte, *]
        · simp [hx]
      · by_cases hx : x = a
        · simp [readByte, hx]
        · by_cases hl : x < a
          · have h1 : x < k := by omega
            have h2 : x ≠ k := by omega
            simp [readByte, hx, hl, h1, h2]
          · simp [readByte, hx, hl]
    · split
      · rename_i hk
        rw [← hk] at h4
        by_cases hx : x = a
        · split
          · rename_i hb
            rw [hx, readByte_below (Nat.lt_succ_self a) h4]; simp [hb]
          · simp [readByte, hx]
        · split
          · by_cases hl : x < a
            · simp [readByte, hx, hl, ← hk, readByte_below (show x < a + 1 by omega) h4]
            · simp [readByte, hx, hl, ← hk]
          · simp [readByte, hx, ← hk]
      · rename_i hak hk
        by_cases hx : x = k
        · have : k ≠ a := fun e => hk e.symm
          simp [readByte, *]
        · by_cases hl : x < k
          · have : x ≠ a := by omega
            simp [readByte, *]
          · simp [readByte, hx, hl, ih h4]

theorem address_succ (a : Word) (i : Nat) : a + 1 + BitVec.ofNat 32 i = a + BitVec.ofNat 32 (i + 1) := by
  rw [BitVec.ofNat_add, BitVec.add_assoc, BitVec.add_comm (BitVec.ofNat 32 i)]; rfl

/-- An address outside the written bytes reads as before. -/
theorem readByte_writeBytes_outside {m : List Host.Cell} {a : Word} {bs : List Byte} {x : Word}
    (h : Memory.wf m = true) (hx : ∀ i < bs.length, x ≠ a + BitVec.ofNat 32 i) :
    readByte (writeBytes m a bs) x.toNat = readByte m x.toNat := by
  induction bs generalizing m a with
  | nil => rfl
  | cons b bs ih =>
    have h0 : x ≠ a := by simpa using hx 0 (by simp)
    unfold writeBytes
    rw [ih (writeByte_wfFrom (Nat.zero_le _) a.isLt h), readByte_writeByte _ h,
      if_neg (fun e => h0 (BitVec.eq_of_toNat_eq e))]
    intro i hi e
    apply hx (i + 1) (by simpa using hi)
    rw [e, address_succ]

/-- The byte at a written address, for a write that does not wrap onto itself. -/
theorem readByte_writeBytes_inside {m : List Host.Cell} {a : Word} {bs : List Byte} {i : Nat}
    (h : Memory.wf m = true) (hl : bs.length ≤ 2 ^ 32) (hi : i < bs.length) :
    readByte (writeBytes m a bs) (a + BitVec.ofNat 32 i).toNat = bs[i] := by
  induction bs generalizing m a i with
  | nil => simp at hi
  | cons b bs ih =>
    have hw := writeByte_wfFrom (b := b) (Nat.zero_le a.toNat) a.isLt h
    cases i with
    | zero =>
      unfold writeBytes
      rw [readByte_writeBytes_outside hw]
      · simp [readByte_writeByte _ h]
      · intro j hj e
        simp only [List.length_cons] at hl
        have := congrArg BitVec.toNat e
        simp [BitVec.toNat_add, BitVec.toNat_ofNat] at this
        have := a.isLt
        omega
    | succ i =>
      unfold writeBytes
      rw [← address_succ]
      exact ih hw (by simp at hl; omega) (by simpa using hi)

end Sys2Proof.Machine
end

