-- ==== Sys2Proof/Laws/Ops.lean ====
section
/-! SUPPORT. One lemma for each shared operation that says everything it can do. -/

namespace Sys2Proof.Machine

/-! ## Registers -/

/-- A register of a file after one register of it is written. -/
@[simp] theorem fileGet_fileSet (f : Vector Word 32) (r q : BitVec 5) (v : Word) :
    fileGet (fileSet f r v) q = if q = r then v else fileGet f q := by
  simp only [fileGet, fileSet, Vector.getElem_set, BitVec.toNat_inj]
  simp [eq_comm]

@[simp] theorem reg_setReg (s : State) (r q : Reg) (v : Word) :
    (s.setReg r v).reg q = if q = r then v else s.reg q := fileGet_fileSet s.gpr r q v

@[simp] theorem reg_drawReg (s : State) (r q : Reg) :
    (s.drawReg r).reg q = if q = r then Config.freeWord s.free else s.reg q := fileGet_fileSet s.gpr r q _

/-- The accumulator after it is written. -/
@[simp] theorem acc_setAcc (s : State) (v : BitVec 64) : (s.setAcc v).acc = v := by
  show v.extractLsb' 32 32 ++ v.extractLsb' 0 32 = v
  apply BitVec.eq_of_getLsbD_eq
  intro i hi
  simp only [BitVec.getLsbD_append, BitVec.getLsbD_extractLsb']
  by_cases h : i < 32
  · simp [h]
  · simp [h, show i - 32 < 32 by omega, show 32 + (i - 32) = i by omega]

/-- Which special registers there are (R37). -/
theorem special_cases (s : State) (n : BitVec 5) :
    n = 0 ∧ s.special n = some s.cnt ∨ n = 1 ∧ s.special n = some s.lcr ∨ n = 2 ∧ s.special n = some s.scr ∨
      2 < n.toNat ∧ s.special n = none := by
  have h : ∀ n : BitVec 5, n = 0 ∨ n = 1 ∨ n = 2 ∨ 2 < n.toNat := by decide
  rcases h n with rfl | rfl | rfl | h
  · exact .inl ⟨rfl, rfl⟩
  · exact .inr (.inl ⟨rfl, rfl⟩)
  · exact .inr (.inr (.inl ⟨rfl, rfl⟩))
  · refine .inr (.inr (.inr ⟨h, ?_⟩))
    unfold State.special
    split <;> first | rfl | omega

/-- What a write of a special register does (R37). -/
theorem setSpecial_cases (s : State) (n : BitVec 5) (v : Word) :
    n = 0 ∧ s.setSpecial n v = some { s with cnt := v } ∨ n = 1 ∧ s.setSpecial n v = some { s with lcr := v } ∨
      n = 2 ∧ s.setSpecial n v = some { s with scr := v } ∨ 2 < n.toNat ∧ s.setSpecial n v = none := by
  have h : ∀ n : BitVec 5, n = 0 ∨ n = 1 ∨ n = 2 ∨ 2 < n.toNat := by decide
  rcases h n with rfl | rfl | rfl | h
  · exact .inl ⟨rfl, rfl⟩
  · exact .inr (.inl ⟨rfl, rfl⟩)
  · exact .inr (.inr (.inl ⟨rfl, rfl⟩))
  · refine .inr (.inr (.inr ⟨h, ?_⟩))
    unfold State.setSpecial
    split <;> first | rfl | omega

/-! ## MemMap and data accesses -/

/-- What MemMap asks for (R90). -/
theorem mapFault_cases (s : State) (k : AccessKind) (a : Word) :
    s.memMap a k = .ok ∧ s.mapFault k a = none ∨
      s.memMap a k = .addressError ∧ s.mapFault k a = some (addressErrorOf k) ∨
      s.memMap a k = .busError ∧ s.mapFault k a = some (busErrorOf k) := by
  unfold State.mapFault
  split <;> simp_all

/-- An access without a fault is aligned and MemMap allows it (R300). -/
theorem dataFault_none {s : State} {k : AccessKind} {w : Width} {ea : Word} :
    s.dataFault k w ea = none ↔ misaligned w ea = false ∧ s.memMap ea k = .ok := by
  unfold State.dataFault
  rcases mapFault_cases s k ea with ⟨h, e⟩ | ⟨h, e⟩ | ⟨h, e⟩ <;> cases hm : misaligned w ea <;> simp [h, e]

/-- A data access has its effect, or raises the exception of its address. -/
theorem accessed_cases (s : State) (k : AccessKind) (w : Width) (ea : Word) (effect : State) :
    s.dataFault k w ea = none ∧ s.accessed k w ea effect = effect ∨
      ∃ x, s.dataFault k w ea = some x ∧ s.accessed k w ea effect = s.raiseAt x ea := by
  unfold State.accessed
  split <;> simp_all

theorem accessed_ok {s : State} {k : AccessKind} {w : Width} {ea : Word} {effect : State}
    (ha : misaligned w ea = false) (hm : s.memMap ea k = .ok) : s.accessed k w ea effect = effect := by
  simp [State.accessed, dataFault_none.2 ⟨ha, hm⟩]

/-- The registers after a load that also updates its base. -/
theorem setLoadedBase_ne {s : State} {rd ra : Reg} {v base : Word} (h : rd ≠ ra) :
    s.setLoadedBase rd ra v base = (s.setReg rd v).setReg ra base := if_neg h

theorem setLoadedBase_eq {s : State} {r : Reg} {v base : Word} : s.setLoadedBase r r v base = s.drawReg r := if_pos rfl

/-! ## Privilege, coprocessors, byte order -/

/-- A control instruction has its effect, or raises CCU (R712). -/
theorem controlled_cases (s effect : State) :
    s.privileged = true ∧ s.controlled effect = effect ∨
      s.privileged = false ∧ s.controlled effect = s.raise .ccu := by
  unfold State.controlled
  cases s.privileged <;> simp

/-- A coprocessor instruction has its effect, or raises RI or CCU (R385). -/
theorem coprocessed_cases (s : State) (n : BitVec 2) (effect : State) :
    n ≠ 0 ∧ s.copUsable n = true ∧ s.copPresent n = true ∧ s.coprocessed n effect = effect ∨
      (n = 0 ∨ s.copUsable n = true ∧ s.copPresent n = false) ∧ s.coprocessed n effect = s.raise .ri ∨
      n ≠ 0 ∧ s.copUsable n = false ∧ s.coprocessed n effect = s.raise .ccu := by
  unfold State.coprocessed
  by_cases h : n = 0
  · simp [h]
  · rw [if_neg h]
    cases hu : s.copUsable n
    · exact .inr (.inr ⟨h, rfl, rfl⟩)
    · cases hp : s.copPresent n
      · exact .inr (.inl ⟨.inr ⟨rfl, rfl⟩, rfl⟩)
      · exact .inl ⟨h, rfl, rfl, rfl⟩

/-- A combine instruction runs in big endian and is refused in little endian (R337). -/
theorem combined_cases (s effect : State) :
    s.cfg.littleEndian = false ∧ s.combined effect = .next effect ∨
      s.cfg.littleEndian = true ∧ s.combined effect = .refused .littleEndianCombine := by
  unfold State.combined
  cases s.cfg.littleEndian <;> simp

/-! ## Flags -/

/-- An update that leaves no flag UNDEFINED draws nothing. -/
theorem putFlags_drawn {s : State} {u : FlagUpdate} (h : u.draws = false) :
    s.putFlags u = { s with flags := u.flags s.flags (Config.freeFlags s.free) } := by
  simp [State.putFlags, h]

@[simp] theorem putFlags_empty (s : State) : s.putFlags {} = s := rfl

@[simp] theorem onCu_true (u : FlagUpdate) : onCu true u = u := rfl

@[simp] theorem onCu_false (u : FlagUpdate) : onCu false u = {} := rfl

/-! ## The step -/

/-- An event that is taken enters a handler and ends sleep (R705, R715). -/
theorem event_cases {s t : State} {i : Inputs} (h : s.event i = some t) :
    s.dreg.dm = false ∧
      (i.dbg = true ∧ t = { s with sleeping := false }.debugEnter false false ∨
        i.dbg = false ∧ i.nmi = true ∧ t = { s with sleeping := false }.raise .nmi ∨
        i.dbg = false ∧ i.nmi = false ∧ s.psr.iec = true ∧
          ∃ l, lowestLine (i.ext &&& s.ecr.im) = some l ∧ t = { s with sleeping := false }.raise (.interrupt l)) := by
  unfold State.event at h
  cases hd : s.dreg.dm <;> simp only [hd, if_true, if_false, Bool.false_eq_true] at h
  · refine ⟨rfl, ?_⟩
    cases hb : i.dbg <;> simp only [hb, if_true, if_false, Bool.false_eq_true] at h
    · cases hn : i.nmi <;> simp only [hn, if_true, if_false, Bool.false_eq_true] at h
      · cases hi : s.psr.iec <;> simp only [hi, if_true, if_false, Bool.false_eq_true] at h
        · cases h
        · cases hl : lowestLine (i.ext &&& s.ecr.im) with
          | none => rw [hl] at h; cases h
          | some l =>
            rw [hl] at h
            exact .inr (.inr ⟨rfl, rfl, rfl, l, rfl, (Option.some.inj h).symm⟩)
      · exact .inr (.inl ⟨rfl, rfl, (Option.some.inj h).symm⟩)
    · exact .inl ⟨rfl, (Option.some.inj h).symm⟩
  · cases h

/-- What the fetch at pc gives (R684). -/
theorem fetched_cases (s : State) :
    (∃ i, decode s.cfg.littleEndian (s.half s.pc) (s.half (s.pc + 2)) = .ok i ∧ s.fetched = .instr i) ∨
      (∃ x, s.fetched = .raised (s.raiseAt x s.pc)) ∨ (∃ x, s.fetched = .raised (s.raiseAt x (s.pc + 2))) ∨
      s.fetched = .raised (s.raise .ri) ∨ s.fetched = .stopped .pcePair := by
  have hd : (∃ i, decode s.cfg.littleEndian (s.half s.pc) (s.half (s.pc + 2)) = .ok i ∧ s.decoded = .instr i) ∨
      s.decoded = .raised (s.raise .ri) ∨ s.decoded = .stopped .pcePair := by
    unfold State.decoded
    split <;> simp_all
  unfold State.fetched
  split
  · exact .inr (.inl ⟨_, rfl⟩)
  · split
    · split
      · exact .inr (.inr (.inl ⟨_, rfl⟩))
      · rcases hd with h | h | h
        · exact .inl h
        · exact .inr (.inr (.inr (.inl h)))
        · exact .inr (.inr (.inr (.inr h)))
    · rcases hd with h | h | h
      · exact .inl h
      · exact .inr (.inr (.inr (.inl h)))
      · exact .inr (.inr (.inr (.inr h)))

/-- Everything that a step which answers a next state can do: take an event, sleep on, take the exception of a fetch, or execute an instruction. -/
theorem step_cases {s t : State} (h : step s = .next t) :
    s.tick.event s.now = some t ∨
      s.tick.event s.now = none ∧
        (s.sleeping = true ∧ t = s.tick ∨
          s.sleeping = false ∧
            ((∃ x a, t = s.tick.raiseAt x a) ∨ t = s.tick.raise .ri ∨ ∃ i, exec i s.tick = .next t)) := by
  unfold step at h
  split at h
  · rename_i u hu
    injection h with h
    exact .inl (h ▸ hu)
  · rename_i hu
    refine .inr ⟨hu, ?_⟩
    cases hs : s.sleeping
    · refine .inr ⟨rfl, ?_⟩
      simp only [hs, Bool.false_eq_true, if_false, fetchExec] at h
      rcases fetched_cases s.tick with ⟨i, -, e⟩ | ⟨x, e⟩ | ⟨x, e⟩ | e | e <;> simp only [e] at h
      · exact .inr (.inr ⟨i, h⟩)
      · injection h with h
        exact .inl ⟨x, _, h.symm⟩
      · injection h with h
        exact .inl ⟨x, _, h.symm⟩
      · injection h with h
        exact .inr (.inl h.symm)
      · cases h
    · simp only [hs, if_true] at h
      injection h with h
      exact .inl ⟨rfl, h.symm⟩

end Sys2Proof.Machine
end

