-- ==== Sys2Proof/Laws/Control.lean ====
section
/-! SUPPORT. The images of the packed control registers, bit by bit; that a write keeps the remainders clear; and what a legal launch gives. -/

namespace Sys2Proof.Machine

/-! ## Bits of an image -/

/-- A field bit stands at its place only. -/
@[simp] theorem bitAt_getLsbD (b : Bool) (p : Fin 32) (j : Nat) :
    (bitAt b p).getLsbD j = (b && decide (p.val = j)) := by
  have hp := p.isLt
  cases b
  · simp [bitAt]
  · simp only [bitAt, if_true, BitVec.getLsbD_shiftLeft, BitVec.getLsbD_one, Bool.true_and]
    by_cases h : p.val = j
    · subst h; simp
    · simp only [h, decide_false]
      by_cases h2 : j < p.val
      · simp [h2]
      · simp [show ¬(j - p.val = 0) by omega]

/-- The mask of a list of places has exactly those bits. -/
@[simp] theorem fieldMask_getLsbD (ps : List (Fin 32)) (j : Nat) :
    (fieldMask ps).getLsbD j = ps.any fun p => decide (p.val = j) := by
  induction ps with
  | nil => simp [fieldMask]
  | cons p ps ih =>
    have h := bitAt_getLsbD true p j
    simp only [bitAt, if_true, Bool.true_and] at h
    simp only [fieldMask, BitVec.getLsbD_or, ih, h, List.any_cons]

/-- What a mask removes, no bit of the mask is left in. -/
theorem and_not_and_mask (w m : Word) : w &&& ~~~m &&& m = 0 := by
  ext j; simp

/-- A write of a control register leaves every remainder clear that was clear. -/
theorem setControlReg_remaindersClear {s : State} (n : BitVec 5) (w : Word) (h : s.remaindersClear = true) :
    (s.setControlReg n w).remaindersClear = true := by
  have hc : (s.setControlReg n w).cfg = s.cfg := by
    simp only [State.setControlReg]; split <;> rfl
  simp only [State.remaindersClear, hc, Bool.and_eq_true, beq_iff_eq] at h ⊢
  obtain ⟨⟨⟨h0, h1⟩, h2⟩, h3⟩ := h
  simp only [State.setControlReg]
  split
  · exact ⟨⟨⟨and_not_and_mask _ _, h1⟩, h2⟩, h3⟩
  · exact ⟨⟨⟨h0, and_not_and_mask _ _⟩, h2⟩, h3⟩
  · refine ⟨⟨⟨h0, h1⟩, ?_⟩, h3⟩
    simp only [State.setEcr]
    split <;> exact and_not_and_mask _ _
  all_goals first
    | exact ⟨⟨⟨h0, h1⟩, h2⟩, h3⟩
    | exact ⟨⟨⟨h0, h1⟩, h2⟩, and_not_and_mask _ _⟩

/-! ## MemMap -/

/-- What MemMap answers is the answer of the first region that fits, or ok (R90, R106). -/
theorem memMapVerdict_cases (rs : List MapRule) (a : Word) (k : AccessKind) (m : Mode) :
    (∃ pre r post, rs = pre ++ r :: post ∧ (∀ q ∈ pre, mapRuleFits q a k m = false) ∧
      mapRuleFits r a k m = true ∧ memMapVerdict rs a k m = r.verdict) ∨
    ((∀ q ∈ rs, mapRuleFits q a k m = false) ∧ memMapVerdict rs a k m = .ok) := by
  induction rs with
  | nil => exact .inr ⟨by simp, rfl⟩
  | cons r rs ih =>
    by_cases hr : mapRuleFits r a k m = true
    · exact .inl ⟨[], r, rs, rfl, by simp, hr, by simp [memMapVerdict, hr]⟩
    · have hf : mapRuleFits r a k m = false := by simpa using hr
      rcases ih with ⟨pre, q, post, rfl, hpre, hq, hv⟩ | ⟨hall, hv⟩
      · exact .inl ⟨r :: pre, q, post, rfl, by simpa [hf] using hpre, hq, by simp [memMapVerdict, hf, hv]⟩
      · exact .inr ⟨by simpa [hf] using hall, by simp [memMapVerdict, hf, hv]⟩

/-! ## A legal launch -/

/-- Where an exception's code stands in `excCodesOf`. -/
def excIndex : Exc → Nat
  | .interrupt _ => 0
  | .nmi => 1
  | .adelInst => 2
  | .busErrInst => 3
  | .ccu => 4
  | .ri => 5
  | .adelData => 6
  | .ades => 7
  | .cee => 8
  | .cpe => 9
  | .busErrData => 10
  | .syscall => 11
  | .trap => 12

theorem excCodesOf_excIndex (p : Params) (x : Exc) :
    (excCodesOf p.excCodes)[excIndex x]? = some (excCode p x) := by cases x <;> rfl

/-- Under a legal launch the cause code tells the exceptions apart, but for the number of the interrupt line (R682). -/
theorem excCode_injective {p : Params} (h : launchLegal p = true) {x y : Exc} (hc : excCode p x = excCode p y) :
    x = y ∨ ∃ l k, x = .interrupt l ∧ y = .interrupt k := by
  have hn : (excCodesOf p.excCodes).Nodup := of_decide_eq_true (Bool.and_eq_true_iff.mp h).1
  have hl : excIndex x < (excCodesOf p.excCodes).length := by cases x <;> simp [excIndex, excCodesOf]
  have hi : excIndex x = excIndex y :=
    (List.getElem?_inj hl hn).mp (by rw [excCodesOf_excIndex, excCodesOf_excIndex, hc])
  cases x <;> cases y <;> simp [excIndex] at hi ⊢

/-- The launch of State.reset is legal. -/
theorem reset_launchLegal : launchLegal State.reset.cfg = true := by decide

end Sys2Proof.Machine
end

