-- ==== Sys2Proof/Laws/Encoding.lean ====
section
/-! SUPPORT. The fields of every instruction form are where the decoder looks for them, and what the decoder answers on the words of an effective instruction. -/

namespace Sys2Proof

/-! ## The fields of the forms (R126, R127) -/

set_option simprocs false in
@[simp] theorem specialForm_25_5 (rd ra rb : BitVec 5) (func6 : BitVec 6) (b0 : BitVec 1) : (specialForm rd ra rb func6 b0).extractLsb' 25 5 = 0b00000#5 := by
  have h : BitVec.extractLsb' 25 5 (0b00000#5 ++ rd ++ ra ++ rb ++ 0b000#3 ++ func6 ++ b0) = 0b00000#5 := by
    simp (disch := decide) only [BitVec.extractLsb'_append_eq_of_le]
    exact BitVec.extractLsb'_eq_self
  exact h

set_option simprocs false in
@[simp] theorem specialForm_20_5 (rd ra rb : BitVec 5) (func6 : BitVec 6) (b0 : BitVec 1) : (specialForm rd ra rb func6 b0).extractLsb' 20 5 = rd := by
  have h : BitVec.extractLsb' 20 5 (0b00000#5 ++ rd ++ ra ++ rb ++ 0b000#3 ++ func6 ++ b0) = rd := by
    simp (disch := decide) only [BitVec.extractLsb'_append_eq_of_le, BitVec.extractLsb'_append_eq_of_add_le]
    exact BitVec.extractLsb'_eq_self
  exact h

set_option simprocs false in
@[simp] theorem specialForm_15_5 (rd ra rb : BitVec 5) (func6 : BitVec 6) (b0 : BitVec 1) : (specialForm rd ra rb func6 b0).extractLsb' 15 5 = ra := by
  have h : BitVec.extractLsb' 15 5 (0b00000#5 ++ rd ++ ra ++ rb ++ 0b000#3 ++ func6 ++ b0) = ra := by
    simp (disch := decide) only [BitVec.extractLsb'_append_eq_of_le, BitVec.extractLsb'_append_eq_of_add_le]
    exact BitVec.extractLsb'_eq_self
  exact h

set_option simprocs false in
@[simp] theorem specialForm_10_5 (rd ra rb : BitVec 5) (func6 : BitVec 6) (b0 : BitVec 1) : (specialForm rd ra rb func6 b0).extractLsb' 10 5 = rb := by
  have h : BitVec.extractLsb' 10 5 (0b00000#5 ++ rd ++ ra ++ rb ++ 0b000#3 ++ func6 ++ b0) = rb := by
    simp (disch := decide) only [BitVec.extractLsb'_append_eq_of_le, BitVec.extractLsb'_append_eq_of_add_le]
    exact BitVec.extractLsb'_eq_self
  exact h

set_option simprocs false in
@[simp] theorem specialForm_7_3 (rd ra rb : BitVec 5) (func6 : BitVec 6) (b0 : BitVec 1) : (specialForm rd ra rb func6 b0).extractLsb' 7 3 = 0b000#3 := by
  have h : BitVec.extractLsb' 7 3 (0b00000#5 ++ rd ++ ra ++ rb ++ 0b000#3 ++ func6 ++ b0) = 0b000#3 := by
    simp (disch := decide) only [BitVec.extractLsb'_append_eq_of_le, BitVec.extractLsb'_append_eq_of_add_le]
    exact BitVec.extractLsb'_eq_self
  exact h

set_option simprocs false in
@[simp] theorem specialForm_1_6 (rd ra rb : BitVec 5) (func6 : BitVec 6) (b0 : BitVec 1) : (specialForm rd ra rb func6 b0).extractLsb' 1 6 = func6 := by
  have h : BitVec.extractLsb' 1 6 (0b00000#5 ++ rd ++ ra ++ rb ++ 0b000#3 ++ func6 ++ b0) = func6 := by
    simp (disch := decide) only [BitVec.extractLsb'_append_eq_of_le, BitVec.extractLsb'_append_eq_of_add_le]
    exact BitVec.extractLsb'_eq_self
  exact h

set_option simprocs false in
@[simp] theorem specialForm_0_1 (rd ra rb : BitVec 5) (func6 : BitVec 6) (b0 : BitVec 1) : (specialForm rd ra rb func6 b0).extractLsb' 0 1 = b0 := by
  have h : BitVec.extractLsb' 0 1 (0b00000#5 ++ rd ++ ra ++ rb ++ 0b000#3 ++ func6 ++ b0) = b0 := by
    simp (disch := decide) only [BitVec.extractLsb'_append_eq_of_add_le]
    exact BitVec.extractLsb'_eq_self
  exact h

@[simp] theorem specialForm_bit0 (rd ra rb : BitVec 5) (func6 : BitVec 6) (b0 : BitVec 1) : (specialForm rd ra rb func6 b0)[0] = b0[0] := by
  simp only [specialForm, ← BitVec.getLsbD_eq_getElem, BitVec.getLsbD_append]; rfl

set_option simprocs false in
@[simp] theorem specialImmForm_25_5 (imm : BitVec 15) (func6 : BitVec 6) (b0 : BitVec 1) : (specialImmForm imm func6 b0).extractLsb' 25 5 = 0b00000#5 := by
  have h : BitVec.extractLsb' 25 5 (0b00000#5 ++ imm ++ 0b000#3 ++ func6 ++ b0) = 0b00000#5 := by
    simp (disch := decide) only [BitVec.extractLsb'_append_eq_of_le]
    exact BitVec.extractLsb'_eq_self
  exact h

set_option simprocs false in
@[simp] theorem specialImmForm_10_15 (imm : BitVec 15) (func6 : BitVec 6) (b0 : BitVec 1) : (specialImmForm imm func6 b0).extractLsb' 10 15 = imm := by
  have h : BitVec.extractLsb' 10 15 (0b00000#5 ++ imm ++ 0b000#3 ++ func6 ++ b0) = imm := by
    simp (disch := decide) only [BitVec.extractLsb'_append_eq_of_le, BitVec.extractLsb'_append_eq_of_add_le]
    exact BitVec.extractLsb'_eq_self
  exact h

set_option simprocs false in
@[simp] theorem specialImmForm_7_3 (imm : BitVec 15) (func6 : BitVec 6) (b0 : BitVec 1) : (specialImmForm imm func6 b0).extractLsb' 7 3 = 0b000#3 := by
  have h : BitVec.extractLsb' 7 3 (0b00000#5 ++ imm ++ 0b000#3 ++ func6 ++ b0) = 0b000#3 := by
    simp (disch := decide) only [BitVec.extractLsb'_append_eq_of_le, BitVec.extractLsb'_append_eq_of_add_le]
    exact BitVec.extractLsb'_eq_self
  exact h

set_option simprocs false in
@[simp] theorem specialImmForm_1_6 (imm : BitVec 15) (func6 : BitVec 6) (b0 : BitVec 1) : (specialImmForm imm func6 b0).extractLsb' 1 6 = func6 := by
  have h : BitVec.extractLsb' 1 6 (0b00000#5 ++ imm ++ 0b000#3 ++ func6 ++ b0) = func6 := by
    simp (disch := decide) only [BitVec.extractLsb'_append_eq_of_le, BitVec.extractLsb'_append_eq_of_add_le]
    exact BitVec.extractLsb'_eq_self
  exact h

set_option simprocs false in
@[simp] theorem specialImmForm_0_1 (imm : BitVec 15) (func6 : BitVec 6) (b0 : BitVec 1) : (specialImmForm imm func6 b0).extractLsb' 0 1 = b0 := by
  have h : BitVec.extractLsb' 0 1 (0b00000#5 ++ imm ++ 0b000#3 ++ func6 ++ b0) = b0 := by
    simp (disch := decide) only [BitVec.extractLsb'_append_eq_of_add_le]
    exact BitVec.extractLsb'_eq_self
  exact h

@[simp] theorem specialImmForm_bit0 (imm : BitVec 15) (func6 : BitVec 6) (b0 : BitVec 1) : (specialImmForm imm func6 b0)[0] = b0[0] := by
  simp only [specialImmForm, ← BitVec.getLsbD_eq_getElem, BitVec.getLsbD_append]; rfl

set_option simprocs false in
@[simp] theorem iForm_25_5 (op rd : BitVec 5) (func3 : BitVec 3) (imm : BitVec 16) (b0 : BitVec 1) : (iForm op rd func3 imm b0).extractLsb' 25 5 = op := by
  have h : BitVec.extractLsb' 25 5 (op ++ rd ++ func3 ++ imm ++ b0) = op := by
    simp (disch := decide) only [BitVec.extractLsb'_append_eq_of_le]
    exact BitVec.extractLsb'_eq_self
  exact h

set_option simprocs false in
@[simp] theorem iForm_20_5 (op rd : BitVec 5) (func3 : BitVec 3) (imm : BitVec 16) (b0 : BitVec 1) : (iForm op rd func3 imm b0).extractLsb' 20 5 = rd := by
  have h : BitVec.extractLsb' 20 5 (op ++ rd ++ func3 ++ imm ++ b0) = rd := by
    simp (disch := decide) only [BitVec.extractLsb'_append_eq_of_le, BitVec.extractLsb'_append_eq_of_add_le]
    exact BitVec.extractLsb'_eq_self
  exact h

set_option simprocs false in
@[simp] theorem iForm_17_3 (op rd : BitVec 5) (func3 : BitVec 3) (imm : BitVec 16) (b0 : BitVec 1) : (iForm op rd func3 imm b0).extractLsb' 17 3 = func3 := by
  have h : BitVec.extractLsb' 17 3 (op ++ rd ++ func3 ++ imm ++ b0) = func3 := by
    simp (disch := decide) only [BitVec.extractLsb'_append_eq_of_le, BitVec.extractLsb'_append_eq_of_add_le]
    exact BitVec.extractLsb'_eq_self
  exact h

set_option simprocs false in
@[simp] theorem iForm_1_16 (op rd : BitVec 5) (func3 : BitVec 3) (imm : BitVec 16) (b0 : BitVec 1) : (iForm op rd func3 imm b0).extractLsb' 1 16 = imm := by
  have h : BitVec.extractLsb' 1 16 (op ++ rd ++ func3 ++ imm ++ b0) = imm := by
    simp (disch := decide) only [BitVec.extractLsb'_append_eq_of_le, BitVec.extractLsb'_append_eq_of_add_le]
    exact BitVec.extractLsb'_eq_self
  exact h

set_option simprocs false in
@[simp] theorem iForm_0_1 (op rd : BitVec 5) (func3 : BitVec 3) (imm : BitVec 16) (b0 : BitVec 1) : (iForm op rd func3 imm b0).extractLsb' 0 1 = b0 := by
  have h : BitVec.extractLsb' 0 1 (op ++ rd ++ func3 ++ imm ++ b0) = b0 := by
    simp (disch := decide) only [BitVec.extractLsb'_append_eq_of_add_le]
    exact BitVec.extractLsb'_eq_self
  exact h

@[simp] theorem iForm_bit0 (op rd : BitVec 5) (func3 : BitVec 3) (imm : BitVec 16) (b0 : BitVec 1) : (iForm op rd func3 imm b0)[0] = b0[0] := by
  simp only [iForm, ← BitVec.getLsbD_eq_getElem, BitVec.getLsbD_append]; rfl

set_option simprocs false in
@[simp] theorem riForm_25_5 (op rd ra : BitVec 5) (imm : BitVec 14) (b0 : BitVec 1) : (riForm op rd ra imm b0).extractLsb' 25 5 = op := by
  have h : BitVec.extractLsb' 25 5 (op ++ rd ++ ra ++ imm ++ b0) = op := by
    simp (disch := decide) only [BitVec.extractLsb'_append_eq_of_le]
    exact BitVec.extractLsb'_eq_self
  exact h

set_option simprocs false in
@[simp] theorem riForm_20_5 (op rd ra : BitVec 5) (imm : BitVec 14) (b0 : BitVec 1) : (riForm op rd ra imm b0).extractLsb' 20 5 = rd := by
  have h : BitVec.extractLsb' 20 5 (op ++ rd ++ ra ++ imm ++ b0) = rd := by
    simp (disch := decide) only [BitVec.extractLsb'_append_eq_of_le, BitVec.extractLsb'_append_eq_of_add_le]
    exact BitVec.extractLsb'_eq_self
  exact h

set_option simprocs false in
@[simp] theorem riForm_15_5 (op rd ra : BitVec 5) (imm : BitVec 14) (b0 : BitVec 1) : (riForm op rd ra imm b0).extractLsb' 15 5 = ra := by
  have h : BitVec.extractLsb' 15 5 (op ++ rd ++ ra ++ imm ++ b0) = ra := by
    simp (disch := decide) only [BitVec.extractLsb'_append_eq_of_le, BitVec.extractLsb'_append_eq_of_add_le]
    exact BitVec.extractLsb'_eq_self
  exact h

set_option simprocs false in
@[simp] theorem riForm_1_14 (op rd ra : BitVec 5) (imm : BitVec 14) (b0 : BitVec 1) : (riForm op rd ra imm b0).extractLsb' 1 14 = imm := by
  have h : BitVec.extractLsb' 1 14 (op ++ rd ++ ra ++ imm ++ b0) = imm := by
    simp (disch := decide) only [BitVec.extractLsb'_append_eq_of_le, BitVec.extractLsb'_append_eq_of_add_le]
    exact BitVec.extractLsb'_eq_self
  exact h

set_option simprocs false in
@[simp] theorem riForm_0_1 (op rd ra : BitVec 5) (imm : BitVec 14) (b0 : BitVec 1) : (riForm op rd ra imm b0).extractLsb' 0 1 = b0 := by
  have h : BitVec.extractLsb' 0 1 (op ++ rd ++ ra ++ imm ++ b0) = b0 := by
    simp (disch := decide) only [BitVec.extractLsb'_append_eq_of_add_le]
    exact BitVec.extractLsb'_eq_self
  exact h

@[simp] theorem riForm_bit0 (op rd ra : BitVec 5) (imm : BitVec 14) (b0 : BitVec 1) : (riForm op rd ra imm b0)[0] = b0[0] := by
  simp only [riForm, ← BitVec.getLsbD_eq_getElem, BitVec.getLsbD_append]; rfl

set_option simprocs false in
@[simp] theorem rixForm_25_5 (op rd ra : BitVec 5) (imm : BitVec 12) (func3 : BitVec 3) : (rixForm op rd ra imm func3).extractLsb' 25 5 = op := by
  have h : BitVec.extractLsb' 25 5 (op ++ rd ++ ra ++ imm ++ func3) = op := by
    simp (disch := decide) only [BitVec.extractLsb'_append_eq_of_le]
    exact BitVec.extractLsb'_eq_self
  exact h

set_option simprocs false in
@[simp] theorem rixForm_20_5 (op rd ra : BitVec 5) (imm : BitVec 12) (func3 : BitVec 3) : (rixForm op rd ra imm func3).extractLsb' 20 5 = rd := by
  have h : BitVec.extractLsb' 20 5 (op ++ rd ++ ra ++ imm ++ func3) = rd := by
    simp (disch := decide) only [BitVec.extractLsb'_append_eq_of_le, BitVec.extractLsb'_append_eq_of_add_le]
    exact BitVec.extractLsb'_eq_self
  exact h

set_option simprocs false in
@[simp] theorem rixForm_15_5 (op rd ra : BitVec 5) (imm : BitVec 12) (func3 : BitVec 3) : (rixForm op rd ra imm func3).extractLsb' 15 5 = ra := by
  have h : BitVec.extractLsb' 15 5 (op ++ rd ++ ra ++ imm ++ func3) = ra := by
    simp (disch := decide) only [BitVec.extractLsb'_append_eq_of_le, BitVec.extractLsb'_append_eq_of_add_le]
    exact BitVec.extractLsb'_eq_self
  exact h

set_option simprocs false in
@[simp] theorem rixForm_3_12 (op rd ra : BitVec 5) (imm : BitVec 12) (func3 : BitVec 3) : (rixForm op rd ra imm func3).extractLsb' 3 12 = imm := by
  have h : BitVec.extractLsb' 3 12 (op ++ rd ++ ra ++ imm ++ func3) = imm := by
    simp (disch := decide) only [BitVec.extractLsb'_append_eq_of_le, BitVec.extractLsb'_append_eq_of_add_le]
    exact BitVec.extractLsb'_eq_self
  exact h

set_option simprocs false in
@[simp] theorem rixForm_0_3 (op rd ra : BitVec 5) (imm : BitVec 12) (func3 : BitVec 3) : (rixForm op rd ra imm func3).extractLsb' 0 3 = func3 := by
  have h : BitVec.extractLsb' 0 3 (op ++ rd ++ ra ++ imm ++ func3) = func3 := by
    simp (disch := decide) only [BitVec.extractLsb'_append_eq_of_add_le]
    exact BitVec.extractLsb'_eq_self
  exact h

set_option simprocs false in
@[simp] theorem memoryForm_25_5 (op rd ra : BitVec 5) (imm : BitVec 15) : (memoryForm op rd ra imm).extractLsb' 25 5 = op := by
  have h : BitVec.extractLsb' 25 5 (op ++ rd ++ ra ++ imm) = op := by
    simp (disch := decide) only [BitVec.extractLsb'_append_eq_of_le]
    exact BitVec.extractLsb'_eq_self
  exact h

set_option simprocs false in
@[simp] theorem memoryForm_20_5 (op rd ra : BitVec 5) (imm : BitVec 15) : (memoryForm op rd ra imm).extractLsb' 20 5 = rd := by
  have h : BitVec.extractLsb' 20 5 (op ++ rd ++ ra ++ imm) = rd := by
    simp (disch := decide) only [BitVec.extractLsb'_append_eq_of_le, BitVec.extractLsb'_append_eq_of_add_le]
    exact BitVec.extractLsb'_eq_self
  exact h

set_option simprocs false in
@[simp] theorem memoryForm_15_5 (op rd ra : BitVec 5) (imm : BitVec 15) : (memoryForm op rd ra imm).extractLsb' 15 5 = ra := by
  have h : BitVec.extractLsb' 15 5 (op ++ rd ++ ra ++ imm) = ra := by
    simp (disch := decide) only [BitVec.extractLsb'_append_eq_of_le, BitVec.extractLsb'_append_eq_of_add_le]
    exact BitVec.extractLsb'_eq_self
  exact h

set_option simprocs false in
@[simp] theorem memoryForm_0_15 (op rd ra : BitVec 5) (imm : BitVec 15) : (memoryForm op rd ra imm).extractLsb' 0 15 = imm := by
  have h : BitVec.extractLsb' 0 15 (op ++ rd ++ ra ++ imm) = imm := by
    simp (disch := decide) only [BitVec.extractLsb'_append_eq_of_add_le]
    exact BitVec.extractLsb'_eq_self
  exact h

set_option simprocs false in
@[simp] theorem jForm_25_5 (disp : BitVec 24) (lk : BitVec 1) : (jForm disp lk).extractLsb' 25 5 = 0b00010#5 := by
  have h : BitVec.extractLsb' 25 5 (0b00010#5 ++ disp ++ lk) = 0b00010#5 := by
    simp (disch := decide) only [BitVec.extractLsb'_append_eq_of_le]
    exact BitVec.extractLsb'_eq_self
  exact h

set_option simprocs false in
@[simp] theorem jForm_1_24 (disp : BitVec 24) (lk : BitVec 1) : (jForm disp lk).extractLsb' 1 24 = disp := by
  have h : BitVec.extractLsb' 1 24 (0b00010#5 ++ disp ++ lk) = disp := by
    simp (disch := decide) only [BitVec.extractLsb'_append_eq_of_le, BitVec.extractLsb'_append_eq_of_add_le]
    exact BitVec.extractLsb'_eq_self
  exact h

set_option simprocs false in
@[simp] theorem jForm_0_1 (disp : BitVec 24) (lk : BitVec 1) : (jForm disp lk).extractLsb' 0 1 = lk := by
  have h : BitVec.extractLsb' 0 1 (0b00010#5 ++ disp ++ lk) = lk := by
    simp (disch := decide) only [BitVec.extractLsb'_append_eq_of_add_le]
    exact BitVec.extractLsb'_eq_self
  exact h

@[simp] theorem jForm_bit0 (disp : BitVec 24) (lk : BitVec 1) : (jForm disp lk)[0] = lk[0] := by
  simp only [jForm, ← BitVec.getLsbD_eq_getElem, BitVec.getLsbD_append]; rfl

set_option simprocs false in
@[simp] theorem bcForm_25_5 (disp : BitVec 19) (bc : BitVec 5) (lk : BitVec 1) : (bcForm disp bc lk).extractLsb' 25 5 = 0b00100#5 := by
  have h : BitVec.extractLsb' 25 5 (0b00100#5 ++ disp.extractLsb' 9 10 ++ bc ++ disp.extractLsb' 0 9 ++ lk) = 0b00100#5 := by
    simp (disch := decide) only [BitVec.extractLsb'_append_eq_of_le]
    exact BitVec.extractLsb'_eq_self
  exact h

set_option simprocs false in
@[simp] theorem bcForm_15_10 (disp : BitVec 19) (bc : BitVec 5) (lk : BitVec 1) : (bcForm disp bc lk).extractLsb' 15 10 = disp.extractLsb' 9 10 := by
  have h : BitVec.extractLsb' 15 10 (0b00100#5 ++ disp.extractLsb' 9 10 ++ bc ++ disp.extractLsb' 0 9 ++ lk) = disp.extractLsb' 9 10 := by
    simp (disch := decide) only [BitVec.extractLsb'_append_eq_of_le, BitVec.extractLsb'_append_eq_of_add_le]
    exact BitVec.extractLsb'_eq_self
  exact h

set_option simprocs false in
@[simp] theorem bcForm_10_5 (disp : BitVec 19) (bc : BitVec 5) (lk : BitVec 1) : (bcForm disp bc lk).extractLsb' 10 5 = bc := by
  have h : BitVec.extractLsb' 10 5 (0b00100#5 ++ disp.extractLsb' 9 10 ++ bc ++ disp.extractLsb' 0 9 ++ lk) = bc := by
    simp (disch := decide) only [BitVec.extractLsb'_append_eq_of_le, BitVec.extractLsb'_append_eq_of_add_le]
    exact BitVec.extractLsb'_eq_self
  exact h

set_option simprocs false in
@[simp] theorem bcForm_1_9 (disp : BitVec 19) (bc : BitVec 5) (lk : BitVec 1) : (bcForm disp bc lk).extractLsb' 1 9 = disp.extractLsb' 0 9 := by
  have h : BitVec.extractLsb' 1 9 (0b00100#5 ++ disp.extractLsb' 9 10 ++ bc ++ disp.extractLsb' 0 9 ++ lk) = disp.extractLsb' 0 9 := by
    simp (disch := decide) only [BitVec.extractLsb'_append_eq_of_le, BitVec.extractLsb'_append_eq_of_add_le]
    exact BitVec.extractLsb'_eq_self
  exact h

set_option simprocs false in
@[simp] theorem bcForm_0_1 (disp : BitVec 19) (bc : BitVec 5) (lk : BitVec 1) : (bcForm disp bc lk).extractLsb' 0 1 = lk := by
  have h : BitVec.extractLsb' 0 1 (0b00100#5 ++ disp.extractLsb' 9 10 ++ bc ++ disp.extractLsb' 0 9 ++ lk) = lk := by
    simp (disch := decide) only [BitVec.extractLsb'_append_eq_of_add_le]
    exact BitVec.extractLsb'_eq_self
  exact h

@[simp] theorem bcForm_bit0 (disp : BitVec 19) (bc : BitVec 5) (lk : BitVec 1) : (bcForm disp bc lk)[0] = lk[0] := by
  simp only [bcForm, ← BitVec.getLsbD_eq_getElem, BitVec.getLsbD_append]; rfl

set_option simprocs false in
@[simp] theorem crForm_25_5 (rd crn : BitVec 5) (crOp : BitVec 8) : (crForm rd crn crOp).extractLsb' 25 5 = 0b00110#5 := by
  have h : BitVec.extractLsb' 25 5 (0b00110#5 ++ rd ++ crn ++ 0b0000000#7 ++ crOp) = 0b00110#5 := by
    simp (disch := decide) only [BitVec.extractLsb'_append_eq_of_le]
    exact BitVec.extractLsb'_eq_self
  exact h

set_option simprocs false in
@[simp] theorem crForm_20_5 (rd crn : BitVec 5) (crOp : BitVec 8) : (crForm rd crn crOp).extractLsb' 20 5 = rd := by
  have h : BitVec.extractLsb' 20 5 (0b00110#5 ++ rd ++ crn ++ 0b0000000#7 ++ crOp) = rd := by
    simp (disch := decide) only [BitVec.extractLsb'_append_eq_of_le, BitVec.extractLsb'_append_eq_of_add_le]
    exact BitVec.extractLsb'_eq_self
  exact h

set_option simprocs false in
@[simp] theorem crForm_15_5 (rd crn : BitVec 5) (crOp : BitVec 8) : (crForm rd crn crOp).extractLsb' 15 5 = crn := by
  have h : BitVec.extractLsb' 15 5 (0b00110#5 ++ rd ++ crn ++ 0b0000000#7 ++ crOp) = crn := by
    simp (disch := decide) only [BitVec.extractLsb'_append_eq_of_le, BitVec.extractLsb'_append_eq_of_add_le]
    exact BitVec.extractLsb'_eq_self
  exact h

set_option simprocs false in
@[simp] theorem crForm_8_7 (rd crn : BitVec 5) (crOp : BitVec 8) : (crForm rd crn crOp).extractLsb' 8 7 = 0b0000000#7 := by
  have h : BitVec.extractLsb' 8 7 (0b00110#5 ++ rd ++ crn ++ 0b0000000#7 ++ crOp) = 0b0000000#7 := by
    simp (disch := decide) only [BitVec.extractLsb'_append_eq_of_le, BitVec.extractLsb'_append_eq_of_add_le]
    exact BitVec.extractLsb'_eq_self
  exact h

set_option simprocs false in
@[simp] theorem crForm_0_8 (rd crn : BitVec 5) (crOp : BitVec 8) : (crForm rd crn crOp).extractLsb' 0 8 = crOp := by
  have h : BitVec.extractLsb' 0 8 (0b00110#5 ++ rd ++ crn ++ 0b0000000#7 ++ crOp) = crOp := by
    simp (disch := decide) only [BitVec.extractLsb'_append_eq_of_add_le]
    exact BitVec.extractLsb'_eq_self
  exact h

set_option simprocs false in
@[simp] theorem copMoveForm_25_5 (rd cra : BitVec 5) (imm : BitVec 10) (n : BitVec 2) (subOp : BitVec 3) : (copMoveForm rd cra imm n subOp).extractLsb' 25 5 = 0b00110#5 := by
  have h : BitVec.extractLsb' 25 5 (0b00110#5 ++ rd ++ cra ++ imm ++ n ++ subOp) = 0b00110#5 := by
    simp (disch := decide) only [BitVec.extractLsb'_append_eq_of_le]
    exact BitVec.extractLsb'_eq_self
  exact h

set_option simprocs false in
@[simp] theorem copMoveForm_20_5 (rd cra : BitVec 5) (imm : BitVec 10) (n : BitVec 2) (subOp : BitVec 3) : (copMoveForm rd cra imm n subOp).extractLsb' 20 5 = rd := by
  have h : BitVec.extractLsb' 20 5 (0b00110#5 ++ rd ++ cra ++ imm ++ n ++ subOp) = rd := by
    simp (disch := decide) only [BitVec.extractLsb'_append_eq_of_le, BitVec.extractLsb'_append_eq_of_add_le]
    exact BitVec.extractLsb'_eq_self
  exact h

set_option simprocs false in
@[simp] theorem copMoveForm_15_5 (rd cra : BitVec 5) (imm : BitVec 10) (n : BitVec 2) (subOp : BitVec 3) : (copMoveForm rd cra imm n subOp).extractLsb' 15 5 = cra := by
  have h : BitVec.extractLsb' 15 5 (0b00110#5 ++ rd ++ cra ++ imm ++ n ++ subOp) = cra := by
    simp (disch := decide) only [BitVec.extractLsb'_append_eq_of_le, BitVec.extractLsb'_append_eq_of_add_le]
    exact BitVec.extractLsb'_eq_self
  exact h

set_option simprocs false in
@[simp] theorem copMoveForm_5_10 (rd cra : BitVec 5) (imm : BitVec 10) (n : BitVec 2) (subOp : BitVec 3) : (copMoveForm rd cra imm n subOp).extractLsb' 5 10 = imm := by
  have h : BitVec.extractLsb' 5 10 (0b00110#5 ++ rd ++ cra ++ imm ++ n ++ subOp) = imm := by
    simp (disch := decide) only [BitVec.extractLsb'_append_eq_of_le, BitVec.extractLsb'_append_eq_of_add_le]
    exact BitVec.extractLsb'_eq_self
  exact h

set_option simprocs false in
@[simp] theorem copMoveForm_3_2 (rd cra : BitVec 5) (imm : BitVec 10) (n : BitVec 2) (subOp : BitVec 3) : (copMoveForm rd cra imm n subOp).extractLsb' 3 2 = n := by
  have h : BitVec.extractLsb' 3 2 (0b00110#5 ++ rd ++ cra ++ imm ++ n ++ subOp) = n := by
    simp (disch := decide) only [BitVec.extractLsb'_append_eq_of_le, BitVec.extractLsb'_append_eq_of_add_le]
    exact BitVec.extractLsb'_eq_self
  exact h

set_option simprocs false in
@[simp] theorem copMoveForm_0_3 (rd cra : BitVec 5) (imm : BitVec 10) (n : BitVec 2) (subOp : BitVec 3) : (copMoveForm rd cra imm n subOp).extractLsb' 0 3 = subOp := by
  have h : BitVec.extractLsb' 0 3 (0b00110#5 ++ rd ++ cra ++ imm ++ n ++ subOp) = subOp := by
    simp (disch := decide) only [BitVec.extractLsb'_append_eq_of_add_le]
    exact BitVec.extractLsb'_eq_self
  exact h

set_option simprocs false in
@[simp] theorem copForm_25_5 (code : BitVec 20) (n : BitVec 2) : (copForm code n).extractLsb' 25 5 = 0b00110#5 := by
  have h : BitVec.extractLsb' 25 5 (0b00110#5 ++ code ++ n ++ 0b100#3) = 0b00110#5 := by
    simp (disch := decide) only [BitVec.extractLsb'_append_eq_of_le]
    exact BitVec.extractLsb'_eq_self
  exact h

set_option simprocs false in
@[simp] theorem copForm_5_20 (code : BitVec 20) (n : BitVec 2) : (copForm code n).extractLsb' 5 20 = code := by
  have h : BitVec.extractLsb' 5 20 (0b00110#5 ++ code ++ n ++ 0b100#3) = code := by
    simp (disch := decide) only [BitVec.extractLsb'_append_eq_of_le, BitVec.extractLsb'_append_eq_of_add_le]
    exact BitVec.extractLsb'_eq_self
  exact h

set_option simprocs false in
@[simp] theorem copForm_3_2 (code : BitVec 20) (n : BitVec 2) : (copForm code n).extractLsb' 3 2 = n := by
  have h : BitVec.extractLsb' 3 2 (0b00110#5 ++ code ++ n ++ 0b100#3) = n := by
    simp (disch := decide) only [BitVec.extractLsb'_append_eq_of_le, BitVec.extractLsb'_append_eq_of_add_le]
    exact BitVec.extractLsb'_eq_self
  exact h

set_option simprocs false in
@[simp] theorem copForm_0_3 (code : BitVec 20) (n : BitVec 2) : (copForm code n).extractLsb' 0 3 = 0b100#3 := by
  have h : BitVec.extractLsb' 0 3 (0b00110#5 ++ code ++ n ++ 0b100#3) = 0b100#3 := by
    simp (disch := decide) only [BitVec.extractLsb'_append_eq_of_add_le]
    exact BitVec.extractLsb'_eq_self
  exact h

set_option simprocs false in
@[simp] theorem ceForm_25_5 (usd1 ra rb usd2 func5 : BitVec 5) : (ceForm usd1 ra rb usd2 func5).extractLsb' 25 5 = 0b11010#5 := by
  have h : BitVec.extractLsb' 25 5 (0b11010#5 ++ usd1 ++ ra ++ rb ++ usd2 ++ func5) = 0b11010#5 := by
    simp (disch := decide) only [BitVec.extractLsb'_append_eq_of_le]
    exact BitVec.extractLsb'_eq_self
  exact h

set_option simprocs false in
@[simp] theorem ceForm_20_5 (usd1 ra rb usd2 func5 : BitVec 5) : (ceForm usd1 ra rb usd2 func5).extractLsb' 20 5 = usd1 := by
  have h : BitVec.extractLsb' 20 5 (0b11010#5 ++ usd1 ++ ra ++ rb ++ usd2 ++ func5) = usd1 := by
    simp (disch := decide) only [BitVec.extractLsb'_append_eq_of_le, BitVec.extractLsb'_append_eq_of_add_le]
    exact BitVec.extractLsb'_eq_self
  exact h

set_option simprocs false in
@[simp] theorem ceForm_15_5 (usd1 ra rb usd2 func5 : BitVec 5) : (ceForm usd1 ra rb usd2 func5).extractLsb' 15 5 = ra := by
  have h : BitVec.extractLsb' 15 5 (0b11010#5 ++ usd1 ++ ra ++ rb ++ usd2 ++ func5) = ra := by
    simp (disch := decide) only [BitVec.extractLsb'_append_eq_of_le, BitVec.extractLsb'_append_eq_of_add_le]
    exact BitVec.extractLsb'_eq_self
  exact h

set_option simprocs false in
@[simp] theorem ceForm_10_5 (usd1 ra rb usd2 func5 : BitVec 5) : (ceForm usd1 ra rb usd2 func5).extractLsb' 10 5 = rb := by
  have h : BitVec.extractLsb' 10 5 (0b11010#5 ++ usd1 ++ ra ++ rb ++ usd2 ++ func5) = rb := by
    simp (disch := decide) only [BitVec.extractLsb'_append_eq_of_le, BitVec.extractLsb'_append_eq_of_add_le]
    exact BitVec.extractLsb'_eq_self
  exact h

set_option simprocs false in
@[simp] theorem ceForm_5_5 (usd1 ra rb usd2 func5 : BitVec 5) : (ceForm usd1 ra rb usd2 func5).extractLsb' 5 5 = usd2 := by
  have h : BitVec.extractLsb' 5 5 (0b11010#5 ++ usd1 ++ ra ++ rb ++ usd2 ++ func5) = usd2 := by
    simp (disch := decide) only [BitVec.extractLsb'_append_eq_of_le, BitVec.extractLsb'_append_eq_of_add_le]
    exact BitVec.extractLsb'_eq_self
  exact h

set_option simprocs false in
@[simp] theorem ceForm_0_5 (usd1 ra rb usd2 func5 : BitVec 5) : (ceForm usd1 ra rb usd2 func5).extractLsb' 0 5 = func5 := by
  have h : BitVec.extractLsb' 0 5 (0b11010#5 ++ usd1 ++ ra ++ rb ++ usd2 ++ func5) = func5 := by
    simp (disch := decide) only [BitVec.extractLsb'_append_eq_of_add_le]
    exact BitVec.extractLsb'_eq_self
  exact h

set_option simprocs false in
@[simp] theorem macForm_25_5 (rd ra rb : BitVec 5) (low : BitVec 10) : (macForm rd ra rb low).extractLsb' 25 5 = 0b11100#5 := by
  have h : BitVec.extractLsb' 25 5 (0b11100#5 ++ rd ++ ra ++ rb ++ low) = 0b11100#5 := by
    simp (disch := decide) only [BitVec.extractLsb'_append_eq_of_le]
    exact BitVec.extractLsb'_eq_self
  exact h

set_option simprocs false in
@[simp] theorem macForm_20_5 (rd ra rb : BitVec 5) (low : BitVec 10) : (macForm rd ra rb low).extractLsb' 20 5 = rd := by
  have h : BitVec.extractLsb' 20 5 (0b11100#5 ++ rd ++ ra ++ rb ++ low) = rd := by
    simp (disch := decide) only [BitVec.extractLsb'_append_eq_of_le, BitVec.extractLsb'_append_eq_of_add_le]
    exact BitVec.extractLsb'_eq_self
  exact h

set_option simprocs false in
@[simp] theorem macForm_15_5 (rd ra rb : BitVec 5) (low : BitVec 10) : (macForm rd ra rb low).extractLsb' 15 5 = ra := by
  have h : BitVec.extractLsb' 15 5 (0b11100#5 ++ rd ++ ra ++ rb ++ low) = ra := by
    simp (disch := decide) only [BitVec.extractLsb'_append_eq_of_le, BitVec.extractLsb'_append_eq_of_add_le]
    exact BitVec.extractLsb'_eq_self
  exact h

set_option simprocs false in
@[simp] theorem macForm_10_5 (rd ra rb : BitVec 5) (low : BitVec 10) : (macForm rd ra rb low).extractLsb' 10 5 = rb := by
  have h : BitVec.extractLsb' 10 5 (0b11100#5 ++ rd ++ ra ++ rb ++ low) = rb := by
    simp (disch := decide) only [BitVec.extractLsb'_append_eq_of_le, BitVec.extractLsb'_append_eq_of_add_le]
    exact BitVec.extractLsb'_eq_self
  exact h

set_option simprocs false in
@[simp] theorem macForm_0_10 (rd ra rb : BitVec 5) (low : BitVec 10) : (macForm rd ra rb low).extractLsb' 0 10 = low := by
  have h : BitVec.extractLsb' 0 10 (0b11100#5 ++ rd ++ ra ++ rb ++ low) = low := by
    simp (disch := decide) only [BitVec.extractLsb'_append_eq_of_add_le]
    exact BitVec.extractLsb'_eq_self
  exact h

set_option simprocs false in
@[simp] theorem rForm16_12_3 (op : BitVec 3) (rd ra func4 : BitVec 4) : (rForm16 op rd ra func4).extractLsb' 12 3 = op := by
  have h : BitVec.extractLsb' 12 3 (op ++ rd ++ ra ++ func4) = op := by
    simp (disch := decide) only [BitVec.extractLsb'_append_eq_of_le]
    exact BitVec.extractLsb'_eq_self
  exact h

set_option simprocs false in
@[simp] theorem rForm16_8_4 (op : BitVec 3) (rd ra func4 : BitVec 4) : (rForm16 op rd ra func4).extractLsb' 8 4 = rd := by
  have h : BitVec.extractLsb' 8 4 (op ++ rd ++ ra ++ func4) = rd := by
    simp (disch := decide) only [BitVec.extractLsb'_append_eq_of_le, BitVec.extractLsb'_append_eq_of_add_le]
    exact BitVec.extractLsb'_eq_self
  exact h

set_option simprocs false in
@[simp] theorem rForm16_4_4 (op : BitVec 3) (rd ra func4 : BitVec 4) : (rForm16 op rd ra func4).extractLsb' 4 4 = ra := by
  have h : BitVec.extractLsb' 4 4 (op ++ rd ++ ra ++ func4) = ra := by
    simp (disch := decide) only [BitVec.extractLsb'_append_eq_of_le, BitVec.extractLsb'_append_eq_of_add_le]
    exact BitVec.extractLsb'_eq_self
  exact h

set_option simprocs false in
@[simp] theorem rForm16_0_4 (op : BitVec 3) (rd ra func4 : BitVec 4) : (rForm16 op rd ra func4).extractLsb' 0 4 = func4 := by
  have h : BitVec.extractLsb' 0 4 (op ++ rd ++ ra ++ func4) = func4 := by
    simp (disch := decide) only [BitVec.extractLsb'_append_eq_of_add_le]
    exact BitVec.extractLsb'_eq_self
  exact h

set_option simprocs false in
@[simp] theorem iForm16_12_3 (op : BitVec 3) (rd : BitVec 4) (imm : BitVec 5) (func3 : BitVec 3) : (iForm16 op rd imm func3).extractLsb' 12 3 = op := by
  have h : BitVec.extractLsb' 12 3 (op ++ rd ++ imm ++ func3) = op := by
    simp (disch := decide) only [BitVec.extractLsb'_append_eq_of_le]
    exact BitVec.extractLsb'_eq_self
  exact h

set_option simprocs false in
@[simp] theorem iForm16_8_4 (op : BitVec 3) (rd : BitVec 4) (imm : BitVec 5) (func3 : BitVec 3) : (iForm16 op rd imm func3).extractLsb' 8 4 = rd := by
  have h : BitVec.extractLsb' 8 4 (op ++ rd ++ imm ++ func3) = rd := by
    simp (disch := decide) only [BitVec.extractLsb'_append_eq_of_le, BitVec.extractLsb'_append_eq_of_add_le]
    exact BitVec.extractLsb'_eq_self
  exact h

set_option simprocs false in
@[simp] theorem iForm16_3_5 (op : BitVec 3) (rd : BitVec 4) (imm : BitVec 5) (func3 : BitVec 3) : (iForm16 op rd imm func3).extractLsb' 3 5 = imm := by
  have h : BitVec.extractLsb' 3 5 (op ++ rd ++ imm ++ func3) = imm := by
    simp (disch := decide) only [BitVec.extractLsb'_append_eq_of_le, BitVec.extractLsb'_append_eq_of_add_le]
    exact BitVec.extractLsb'_eq_self
  exact h

set_option simprocs false in
@[simp] theorem iForm16_0_3 (op : BitVec 3) (rd : BitVec 4) (imm : BitVec 5) (func3 : BitVec 3) : (iForm16 op rd imm func3).extractLsb' 0 3 = func3 := by
  have h : BitVec.extractLsb' 0 3 (op ++ rd ++ imm ++ func3) = func3 := by
    simp (disch := decide) only [BitVec.extractLsb'_append_eq_of_add_le]
    exact BitVec.extractLsb'_eq_self
  exact h

set_option simprocs false in
@[simp] theorem wideForm16_12_3 (op : BitVec 3) (rd : BitVec 4) (imm : BitVec 8) : (wideForm16 op rd imm).extractLsb' 12 3 = op := by
  have h : BitVec.extractLsb' 12 3 (op ++ rd ++ imm) = op := by
    simp (disch := decide) only [BitVec.extractLsb'_append_eq_of_le]
    exact BitVec.extractLsb'_eq_self
  exact h

set_option simprocs false in
@[simp] theorem wideForm16_8_4 (op : BitVec 3) (rd : BitVec 4) (imm : BitVec 8) : (wideForm16 op rd imm).extractLsb' 8 4 = rd := by
  have h : BitVec.extractLsb' 8 4 (op ++ rd ++ imm) = rd := by
    simp (disch := decide) only [BitVec.extractLsb'_append_eq_of_le, BitVec.extractLsb'_append_eq_of_add_le]
    exact BitVec.extractLsb'_eq_self
  exact h

set_option simprocs false in
@[simp] theorem wideForm16_0_8 (op : BitVec 3) (rd : BitVec 4) (imm : BitVec 8) : (wideForm16 op rd imm).extractLsb' 0 8 = imm := by
  have h : BitVec.extractLsb' 0 8 (op ++ rd ++ imm) = imm := by
    simp (disch := decide) only [BitVec.extractLsb'_append_eq_of_add_le]
    exact BitVec.extractLsb'_eq_self
  exact h

set_option simprocs false in
@[simp] theorem jForm16_12_3 (disp : BitVec 11) (lk : BitVec 1) : (jForm16 disp lk).extractLsb' 12 3 = 0b011#3 := by
  have h : BitVec.extractLsb' 12 3 (0b011#3 ++ disp ++ lk) = 0b011#3 := by
    simp (disch := decide) only [BitVec.extractLsb'_append_eq_of_le]
    exact BitVec.extractLsb'_eq_self
  exact h

set_option simprocs false in
@[simp] theorem jForm16_1_11 (disp : BitVec 11) (lk : BitVec 1) : (jForm16 disp lk).extractLsb' 1 11 = disp := by
  have h : BitVec.extractLsb' 1 11 (0b011#3 ++ disp ++ lk) = disp := by
    simp (disch := decide) only [BitVec.extractLsb'_append_eq_of_le, BitVec.extractLsb'_append_eq_of_add_le]
    exact BitVec.extractLsb'_eq_self
  exact h

set_option simprocs false in
@[simp] theorem jForm16_0_1 (disp : BitVec 11) (lk : BitVec 1) : (jForm16 disp lk).extractLsb' 0 1 = lk := by
  have h : BitVec.extractLsb' 0 1 (0b011#3 ++ disp ++ lk) = lk := by
    simp (disch := decide) only [BitVec.extractLsb'_append_eq_of_add_le]
    exact BitVec.extractLsb'_eq_self
  exact h

@[simp] theorem jForm16_bit0 (disp : BitVec 11) (lk : BitVec 1) : (jForm16 disp lk)[0] = lk[0] := by
  simp only [jForm16, ← BitVec.getLsbD_eq_getElem, BitVec.getLsbD_append]; rfl

set_option simprocs false in
/-- CP# of a control-register instruction is part of its low byte (R134). -/
@[simp] theorem crForm_3_2 (rd crn : BitVec 5) (crOp : BitVec 8) :
    (crForm rd crn crOp).extractLsb' 3 2 = crOp.extractLsb' 3 2 := by
  have h : BitVec.extractLsb' 3 2 (0b00110#5 ++ rd ++ crn ++ 0b0000000#7 ++ crOp) = crOp.extractLsb' 3 2 := by
    simp (disch := decide) only [BitVec.extractLsb'_append_eq_of_add_le]
  exact h

/-! ## Conditions and TCS (R33, R200) -/

@[simp] theorem ofCode_code (c : Cond) : Cond.ofCode c.code = c := by cases c <;> rfl

@[simp] theorem code_ofCode (b : BitVec 4) : (Cond.ofCode b).code = b := by revert b; decide

@[simp] theorem tcs_ofCode_code (t : Tcs) : Tcs.ofCode t.code = t := by cases t <;> rfl

@[simp] theorem tcs_code_ofCode (b : BitVec 2) : (Tcs.ofCode b).code = b := by revert b; decide

@[simp] theorem slot_low (b : BitVec 4) : (0b0#1 ++ b).extractLsb' 0 4 = b := by revert b; decide

@[simp] theorem slot_high (b : BitVec 4) : (0b0#1 ++ b)[4] = false := by revert b; decide

@[simp] theorem tcs_low (b : BitVec 2) : (0b000#3 ++ b).extractLsb' 0 2 = b := by revert b; decide

@[simp] theorem tcs_high (b : BitVec 2) : (0b000#3 ++ b).extractLsb' 2 3 = 0#3 := by revert b; decide

@[simp] theorem base_low (h : Bool) (b : BitVec 3) : (BitVec.ofBool h ++ b).extractLsb' 0 3 = b := by
  revert h b; decide

@[simp] theorem base_high (h : Bool) (b : BitVec 3) : (BitVec.ofBool h ++ b)[3] = h := by
  revert h b; decide

@[simp] theorem exp_low (s : BitVec 1) (e : BitVec 4) : (s ++ e).extractLsb' 0 4 = e := by revert s e; decide

@[simp] theorem exp_high (s : BitVec 1) (e : BitVec 4) : (s ++ e)[4] = s[0] := by revert s e; decide

@[simp] theorem bit_ofBool (b : Bool) : (BitVec.ofBool b)[0] = b := by cases b <;> rfl

set_option simprocs false in
/-- The two parts of the displacement of a BC form (R274). -/
@[simp] theorem disp_parts (disp : BitVec 19) : disp.extractLsb' 9 10 ++ disp.extractLsb' 0 9 = disp := by
  apply BitVec.eq_of_getLsbD_eq
  intro i hi
  simp only [BitVec.getLsbD_append, BitVec.getLsbD_extractLsb']
  by_cases h : i < 9
  · simp [h]
  · simp [h, show i - 9 < 10 by omega, show 9 + (i - 9) = i by omega]

/-! ## The decoder on the words of an effective instruction (R121, R123) -/

theorem half_of_bytes (h : Half) : h.extractLsb' 8 8 ++ h.extractLsb' 0 8 = h := by
  apply BitVec.eq_of_getLsbD_eq
  intro i hi
  simp only [BitVec.getLsbD_append, BitVec.getLsbD_extractLsb']
  by_cases h8 : i < 8
  · simp [h8]
  · simp [h8, show i - 8 < 8 by omega, show 8 + (i - 8) = i by omega]

theorem long_of_halves (m : BitVec 30) : m.extractLsb' 15 15 ++ m.extractLsb' 0 15 = m := by
  apply BitVec.eq_of_getLsbD_eq
  intro i hi
  simp only [BitVec.getLsbD_append, BitVec.getLsbD_extractLsb']
  by_cases h : i < 15
  · simp [h]
  · simp [h, show i - 15 < 15 by omega, show 15 + (i - 15) = i by omega]

set_option simprocs false in
theorem p_removed (b : BitVec 1) (x : BitVec 15) : (b ++ x).extractLsb' 0 15 = x := by
  rw [BitVec.extractLsb'_append_eq_of_add_le (by decide)]
  exact BitVec.extractLsb'_eq_self

theorem p_bit (b : BitVec 1) (x : BitVec 15) : (b ++ x).getLsbD 15 = b.getLsbD 0 := by
  simp only [BitVec.getLsbD_append]; rfl

/-- The decoder on the bytes of a 32-bit instruction with effective value `m`. -/
theorem decodeBytes_long (le : Bool) (m : BitVec 30) (rest : List Byte) :
    decodeBytes le (((Effective.long m).halves le).flatMap (bytesOfHalf le) ++ rest) =
      (orReserved (decode32 m)).map (·, rest) := by
  cases le <;>
    simp only [Effective.halves, bytesOfHalf, decodeBytes, halfOfBytes, half_of_bytes, p_bit, decode, p_removed,
      long_of_halves, List.flatMap_cons, List.flatMap_nil, List.cons_append, List.nil_append, List.append_nil,
      if_true, if_false, Bool.false_eq_true] <;> rfl

/-- The decoder on the bytes of a 16-bit instruction with effective value `h`. -/
theorem decodeBytes_short (le : Bool) (h : BitVec 15) (rest : List Byte) :
    decodeBytes le (((Effective.short h).halves le).flatMap (bytesOfHalf le) ++ rest) =
      (orReserved (decode16 h)).map (·, rest) := by
  cases le <;>
    simp only [Effective.halves, bytesOfHalf, decodeBytes, halfOfBytes, half_of_bytes, p_bit, decode, p_removed,
      List.flatMap_cons, List.flatMap_nil, List.cons_append, List.nil_append, List.append_nil,
      if_true, if_false, Bool.false_eq_true] <;> rfl

end Sys2Proof
end

