-- ==== Sys2Proof/Laws/Operands.lean ====
section
/-! SUPPORT. What the operand forms and the flag computations are as numbers: one lemma for each. -/

namespace Sys2Proof.Machine

/-- A register of g0 has the number of its field (R22). -/
theorem g0_eq (r : G0) : g0 r = r.setWidth 5 := by unfold g0; revert r; decide

/-- A register of g1 has the number of its field plus 16 (R22). -/
theorem g1_eq (r : G0) : g1 r = r.setWidth 5 + 16 := by unfold g1; revert r; decide

/-- The base register of `push!` and `pop!` has the number of its field (R466). -/
theorem gBase_eq (b : BitVec 3) : gBase b = b.setWidth 5 := by unfold gBase; revert b; decide

/-- N of a result: it is negative. -/
theorem msb_eq_neg (r : Word) : r.msb = decide (r.toInt < 0) := BitVec.msb_eq_toInt

/-- Z of a result: it is zero. -/
theorem beq_zero (r : Word) : (r == 0) = decide (r.toNat = 0) := by
  rw [beq_eq_decide]
  exact decide_eq_decide.2 ⟨fun h => h ▸ rfl, fun h => BitVec.eq_of_toNat_eq h⟩

/-- `sext_32` is the signed value. -/
theorem sext_eq {w : Nat} (x : BitVec w) : sext x = BitVec.ofInt 32 x.toInt := rfl

/-- `zext_32` is the unsigned value. -/
theorem zext_eq {w : Nat} (x : BitVec w) : zext x = BitVec.ofNat 32 x.toNat :=
  BitVec.eq_of_toNat_eq (by simp [zext])

/-- Zeros below multiply. -/
theorem toNat_append_zero {w n : Nat} (x : BitVec w) : (x ++ 0#n).toNat = x.toNat * 2 ^ n := by
  simp [BitVec.toNat_append, Nat.shiftLeft_eq]

/-- The upper immediate is its field times 2^16. -/
theorem upper_eq (x : BitVec 16) : upper x = BitVec.ofNat 32 (x.toNat * 2 ^ 16) := by
  apply BitVec.eq_of_toNat_eq
  have := toNat_append_zero (n := 16) x
  have h := x.isLt
  rw [BitVec.toNat_ofNat, Nat.mod_eq_of_lt (by omega)]
  exact this

/-- A bit is 0 when the quotient is even. -/
theorem not_bit_eq (v : Word) (n : Nat) : (!v.getLsbD n) = decide (v.toNat / 2 ^ n % 2 = 0) := by
  rw [BitVec.getLsbD, Nat.testBit_eq_decide_div_mod_eq]
  rcases Nat.mod_two_eq_zero_or_one (v.toNat / 2 ^ n) with h | h <;> simp [h]

/-- Zeros below multiply, signed. -/
theorem toInt_append_zero {w n : Nat} (x : BitVec w) : (x ++ 0#n).toInt = 2 ^ n * x.toInt := by
  simp only [BitVec.toInt_eq_toNat_cond, toNat_append_zero, Nat.pow_add]
  have h : 0 < 2 ^ n := Nat.two_pow_pos n
  have e : 2 * (x.toNat * 2 ^ n) < 2 ^ w * 2 ^ n ↔ 2 * x.toNat < 2 ^ w := by
    rw [← Nat.mul_assoc]; exact Nat.mul_lt_mul_right h
  simp only [e]
  split <;> push_cast <;> ring

/-- A branch target lies twice the displacement away (R274). -/
theorem branchTarget_eq {w : Nat} (pc : Word) (d : BitVec w) :
    branchTarget pc d = pc + BitVec.ofInt 32 (2 * d.toInt) := by
  simp only [branchTarget, BitVec.signExtend, toInt_append_zero]; rfl

/-- The offset of `ldc` and `stc` is four times its field (R390). -/
theorem copOffset_eq (imm : BitVec 10) : copOffset imm = BitVec.ofInt 32 (4 * imm.toInt) := by
  simp only [copOffset, BitVec.signExtend, toInt_append_zero]; rfl

/-- The addend of `addei!` (R427). -/
theorem powerOfTwo_eq (e : BitVec 4) : powerOfTwo e = BitVec.ofNat 32 (2 ^ e.toNat) := by
  apply BitVec.eq_of_toNat_eq
  simp [powerOfTwo, Nat.shiftLeft_eq]

/-- The value of a concatenation. -/
theorem toNat_append_of_lt {v w : Nat} (x : BitVec v) (y : BitVec w) : (x ++ y).toNat = x.toNat * 2 ^ w + y.toNat := by
  rw [BitVec.toNat_append, Nat.shiftLeft_eq, Nat.mul_comm, Nat.two_pow_add_eq_or_of_lt y.isLt]

/-- The target of `j` is in the 32 MiB region of the jump (R278). -/
theorem jumpTarget_eq (pc : Word) (d : BitVec 24) :
    jumpTarget pc d = BitVec.ofNat 32 (pc.toNat / 2 ^ 25 * 2 ^ 25 + 2 * d.toNat) := by
  apply BitVec.eq_of_toNat_eq
  have h : (jumpTarget pc d).toNat = (pc.extractLsb' 25 7 ++ d ++ 0#1).toNat := rfl
  rw [h, toNat_append_of_lt, toNat_append_of_lt, BitVec.extractLsb'_toNat, Nat.shiftRight_eq_div_pow]
  simp; omega

/-- The target of `j!` is in the 4 KiB region of the jump (R457). -/
theorem jumpTarget16_eq (pc : Word) (d : BitVec 11) :
    jumpTarget16 pc d = BitVec.ofNat 32 (pc.toNat / 2 ^ 12 * 2 ^ 12 + 2 * d.toNat) := by
  apply BitVec.eq_of_toNat_eq
  have h : (jumpTarget16 pc d).toNat = (pc.extractLsb' 12 20 ++ d ++ 0#1).toNat := rfl
  rw [h, toNat_append_of_lt, toNat_append_of_lt, BitVec.extractLsb'_toNat, Nat.shiftRight_eq_div_pow]
  simp; omega

/-- The offset of a `*p!` instruction is its field times the size (R470). -/
theorem baseOffset_eq (w : Width) (imm : BitVec 5) : baseOffset w imm = BitVec.ofNat 32 (w.bytes * imm.toNat) := by
  have h := imm.isLt
  apply BitVec.eq_of_toNat_eq
  cases w
  · simp [baseOffset, Width.bytes]
  · have := toNat_append_zero (n := 1) imm
    simp only [baseOffset, Width.bytes, BitVec.toNat_setWidth, BitVec.toNat_ofNat, this]; omega
  · have := toNat_append_zero (n := 2) imm
    simp only [baseOffset, Width.bytes, BitVec.toNat_setWidth, BitVec.toNat_ofNat, this]; omega

/-- Misaligned: not a multiple of the size (R84). -/
theorem misaligned_eq (w : Width) (a : Word) : misaligned w a = decide (a.toNat % w.bytes ≠ 0) := by
  cases w
  · simp [misaligned, Width.bytes, Nat.mod_one]
  · simp only [misaligned, Width.bytes]
    have : a.extractLsb' 0 1 = 0 ↔ a.toNat % 2 = 0 := by
      rw [← BitVec.toNat_inj]; simp [BitVec.extractLsb'_toNat]
    rw [bne, beq_eq_decide, ← decide_not]; exact decide_eq_decide.2 (not_congr this)
  · simp only [misaligned, Width.bytes]
    have : a.extractLsb' 0 2 = 0 ↔ a.toNat % 4 = 0 := by
      rw [← BitVec.toNat_inj]; simp [BitVec.extractLsb'_toNat]
    rw [bne, beq_eq_decide, ← decide_not]; exact decide_eq_decide.2 (not_congr this)

/-- The byte number is the address modulo 4 (R330). -/
theorem misalignment_eq (a : Word) : misalignment a = a.toNat % 4 := by
  simp [misalignment, BitVec.extractLsb'_toNat]

/-- The word address is the address rounded down to a multiple of 4 (R330). -/
theorem wordAddress_toNat (a : Word) : (wordAddress a).toNat = a.toNat / 4 * 4 := by
  have h : (wordAddress a).toNat = (a.extractLsb' 2 30 ++ 0#2).toNat := rfl
  rw [h, toNat_append_of_lt, BitVec.extractLsb'_toNat, Nat.shiftRight_eq_div_pow]
  simp; omega

/-- The word address is the address less its byte number (R330). -/
theorem wordAddress_eq (a : Word) : wordAddress a = a - BitVec.ofNat 32 (a.toNat % 4) := by
  apply BitVec.eq_of_toNat_eq
  rw [wordAddress_toNat, BitVec.toNat_sub]; simp; omega

/-- A shift amount is the register modulo 32. -/
theorem amount_toNat (v : Word) : (amount v).toNat = v.toNat % 32 := by
  simp [amount, BitVec.extractLsb'_toNat]

/-- Out of range, said with the two bounds. -/
theorem fits_eq (v : Int) : (!fitsSigned v) = decide (v < -2 ^ 31 ∨ 2 ^ 31 - 1 < v) := by
  by_cases h1 : v < -2 ^ 31
  · have h3 : ¬ (-2 ^ 31 ≤ v) := by omega
    simp only [fitsSigned, h3, h1]; simp
  · by_cases h2 : 2 ^ 31 - 1 < v
    · have h3 : ¬ (v ≤ 2 ^ 31 - 1) := by omega
      simp only [fitsSigned, h3, h2]; simp
    · have h3 : v ≤ 2 ^ 31 - 1 := by omega
      have h4 : -2 ^ 31 ≤ v := by omega
      simp only [fitsSigned, h3, h4, h1, h2]; simp

/-- Narrowing commutes with subtraction. -/
theorem ofInt_sub {w : Nat} (x y : Int) : BitVec.ofInt w (x - y) = BitVec.ofInt w x - BitVec.ofInt w y := by
  rw [Int.sub_eq_add_neg, BitVec.ofInt_add, BitVec.ofInt_neg, BitVec.sub_eq_add_neg]

/-- A sum is the exact sum modulo 2^32 (R181). -/
theorem sum_eq (a b : Word) (c : Bool) :
    sum a b c = BitVec.ofInt 32 ((a.toNat : Int) + b.toNat + c.toNat) := by
  apply BitVec.eq_of_toNat_eq
  have h : ((a.toNat : Int) + b.toNat + c.toNat) = ((a.toNat + b.toNat + c.toNat : Nat) : Int) := by push_cast; rfl
  rw [h, BitVec.ofInt_natCast]
  cases c <;> simp [sum, BitVec.toNat_add]

/-- V of an addition: the exact signed sum is out of range. -/
theorem overflowOf_eq (a b : Word) (c : Bool) :
    overflowOf a b c = decide (a.toInt + b.toInt + c.toNat < -2 ^ 31 ∨ 2 ^ 31 - 1 < a.toInt + b.toInt + c.toNat) := by
  have h : c.toInt = c.toNat := by cases c <;> rfl
  rw [overflowOf, fits_eq, h]

/-- A difference is the exact difference modulo 2^32 (R186). -/
theorem difference_eq (a b : Word) (c : Bool) :
    difference a b c = BitVec.ofInt 32 ((a.toNat : Int) - b.toNat - (1 - c.toNat)) := by
  have e : a - b = BitVec.ofInt 32 ((a.toNat : Int) - b.toNat) := by
    rw [ofInt_sub, BitVec.ofInt_natCast, BitVec.ofInt_natCast]; simp
  cases c
  · rw [show (1 : Int) - ((false : Bool).toNat : Int) = 1 from rfl, ofInt_sub, ← e]; rfl
  · rw [show (1 : Int) - ((true : Bool).toNat : Int) = 0 from rfl, Int.sub_zero, ← e, difference]
    simp

/-- A difference is the signed difference modulo 2^32. -/
theorem difference_eq_toInt (a b : Word) : difference a b true = BitVec.ofInt 32 (a.toInt - b.toInt) := by
  simp [difference, ofInt_sub]

/-- C of a subtraction: the exact difference is not negative. -/
theorem noBorrow_eq (a b : Word) (c : Bool) :
    noBorrow a b c = decide (0 ≤ (a.toNat : Int) - b.toNat - (1 - c.toNat)) := by
  cases c <;> simp [noBorrow] <;> omega

/-- V of a subtraction: the exact signed difference is out of range. -/
theorem subOverflow_eq (a b : Word) (c : Bool) :
    subOverflow a b c = decide (a.toInt - b.toInt - (1 - c.toNat) < -2 ^ 31 ∨ 2 ^ 31 - 1 < a.toInt - b.toInt - (1 - c.toNat)) := by
  have h : (!c).toInt = 1 - c.toNat := by cases c <;> rfl
  rw [subOverflow, fits_eq, h]

/-- `sat32` clamps (R541). -/
theorem sat32_toInt (v : Int) : (sat32 v).toInt = Max.max (-2 ^ 31) (Min.min (2 ^ 31 - 1) v) := by
  unfold sat32
  split
  · show (0x7FFFFFFF : Word).toInt = _; rw [show (0x7FFFFFFF : Word).toInt = 2 ^ 31 - 1 by decide]; omega
  · split
    · rw [show (0x80000000 : Word).toInt = -2 ^ 31 by decide]; omega
    · rw [wrap32, BitVec.toInt_ofInt, Int.bmod_def]; split <;> omega

/-- The accumulator is CEH above CEL (R541). -/
theorem acc_toNat (s : State) : s.acc.toNat = s.ceh.toNat * 2 ^ 32 + s.cel.toNat := toNat_append_of_lt s.ceh s.cel

/-- The halves of a written accumulator make up its value. -/
theorem setAcc_toNat (s : State) (v : BitVec 64) :
    (s.setAcc v).ceh.toNat * 2 ^ 32 + (s.setAcc v).cel.toNat = v.toNat := by
  rw [← acc_toNat, acc_setAcc]

end Sys2Proof.Machine
end

