-- ==== Sys2Proof/Laws/PerInstr.lean ====
section
/-! SUPPORT. Families of statements about an instruction as syntax, one lemma for each constructor of Instr. -/

namespace Sys2Proof.Laws.EncodeShape

/-- The encoding has as many half-words as the instruction has in memory, and bit 15 of each, its P bit, is 1 exactly where the instruction is a 32-bit one (R120, R121). -/
def Statement (i : Instr) : Prop :=
  ∀ littleEndian : Bool, (encode littleEndian i).length * 2 = i.size ∧
    ∀ h ∈ encode littleEndian i, h.getLsbD 15 = decide (i.size = 4)

theorem ofLong {i : Instr} {m : BitVec 30} (he : i.effective = .long m) (hs : i.size = 4) : Statement i := by
  have hp (x : BitVec 15) : (1#1 ++ x : BitVec 16)[15] = true := by
    rw [← BitVec.getLsbD_eq_getElem, BitVec.getLsbD_append]; rfl
  intro le
  cases le <;> simp [encode, he, hs, Effective.halves, hp]

theorem ofShort {i : Instr} {h : BitVec 15} (he : i.effective = .short h) (hs : i.size = 2) : Statement i := by
  have hp (x : BitVec 15) : (0#1 ++ x : BitVec 16)[15] = false := by
    rw [← BitVec.getLsbD_eq_getElem, BitVec.getLsbD_append]; rfl
  intro le
  cases le <;> simp [encode, he, hs, Effective.halves, hp]

theorem nop : Statement (.nop) := ofLong rfl rfl
theorem syscall (imm : BitVec 15) : Statement (.syscall imm) := ofLong rfl rfl
theorem trapCond (c : Cond) (imm : BitVec 5) : Statement (.trapCond c imm) := ofLong rfl rfl
theorem sdbbp (code : BitVec 5) : Statement (.sdbbp code) := ofLong rfl rfl
theorem brCond (c : Cond) (ra : Reg) : Statement (.brCond c ra) := ofLong rfl rfl
theorem brCondL (c : Cond) (ra : Reg) : Statement (.brCondL c ra) := ofLong rfl rfl
theorem pflush : Statement (.pflush) := ofLong rfl rfl
theorem add (rd ra rb : Reg) (cu : Bool) : Statement (.add rd ra rb cu) := ofLong rfl rfl
theorem addc (rd ra rb : Reg) (cu : Bool) : Statement (.addc rd ra rb cu) := ofLong rfl rfl
theorem sub (rd ra rb : Reg) (cu : Bool) : Statement (.sub rd ra rb cu) := ofLong rfl rfl
theorem subc (rd ra rb : Reg) (cu : Bool) : Statement (.subc rd ra rb cu) := ofLong rfl rfl
theorem cmp (tcs : Tcs) (ra rb : Reg) : Statement (.cmp tcs ra rb) := ofLong rfl rfl
theorem cmpz (tcs : Tcs) (ra : Reg) : Statement (.cmpz tcs ra) := ofLong rfl rfl
theorem neg (rd rb : Reg) (cu : Bool) : Statement (.neg rd rb cu) := ofLong rfl rfl
theorem and (rd ra rb : Reg) (cu : Bool) : Statement (.and rd ra rb cu) := ofLong rfl rfl
theorem or (rd ra rb : Reg) (cu : Bool) : Statement (.or rd ra rb cu) := ofLong rfl rfl
theorem not (rd ra : Reg) (cu : Bool) : Statement (.not rd ra cu) := ofLong rfl rfl
theorem xor (rd ra rb : Reg) (cu : Bool) : Statement (.xor rd ra rb cu) := ofLong rfl rfl
theorem bittst (ra : Reg) (bn : BitVec 5) : Statement (.bittst ra bn) := ofLong rfl rfl
theorem sll (rd ra rb : Reg) (cu : Bool) : Statement (.sll rd ra rb cu) := ofLong rfl rfl
theorem srl (rd ra rb : Reg) (cu : Bool) : Statement (.srl rd ra rb cu) := ofLong rfl rfl
theorem sra (rd ra rb : Reg) (cu : Bool) : Statement (.sra rd ra rb cu) := ofLong rfl rfl
theorem ror (rd ra rb : Reg) (cu : Bool) : Statement (.ror rd ra rb cu) := ofLong rfl rfl
theorem rol (rd ra rb : Reg) (cu : Bool) : Statement (.rol rd ra rb cu) := ofLong rfl rfl
theorem rorc (rd ra rb : Reg) : Statement (.rorc rd ra rb) := ofLong rfl rfl
theorem rolc (rd ra rb : Reg) : Statement (.rolc rd ra rb) := ofLong rfl rfl
theorem mul (ra rb : Reg) : Statement (.mul ra rb) := ofLong rfl rfl
theorem mulF (ra rb : Reg) : Statement (.mulF ra rb) := ofLong rfl rfl
theorem mulu (ra rb : Reg) : Statement (.mulu ra rb) := ofLong rfl rfl
theorem div (ra rb : Reg) : Statement (.div ra rb) := ofLong rfl rfl
theorem divu (ra rb : Reg) : Statement (.divu ra rb) := ofLong rfl rfl
theorem mfcel (rd : Reg) : Statement (.mfcel rd) := ofLong rfl rfl
theorem mfceh (rd : Reg) : Statement (.mfceh rd) := ofLong rfl rfl
theorem mfcehl (rd ra : Reg) : Statement (.mfcehl rd ra) := ofLong rfl rfl
theorem mfcex0 (rd : Reg) : Statement (.mfcex0 rd) := ofLong rfl rfl
theorem mtcel (rd : Reg) : Statement (.mtcel rd) := ofLong rfl rfl
theorem mtceh (rd : Reg) : Statement (.mtceh rd) := ofLong rfl rfl
theorem mtcehl (rd ra : Reg) : Statement (.mtcehl rd ra) := ofLong rfl rfl
theorem mtcex0 (rd : Reg) : Statement (.mtcex0 rd) := ofLong rfl rfl
theorem mfsr (rd : Reg) (srn : BitVec 5) : Statement (.mfsr rd srn) := ofLong rfl rfl
theorem mtsr (ra : Reg) (srn : BitVec 5) : Statement (.mtsr ra srn) := ofLong rfl rfl
theorem tCond (c : Cond) : Statement (.tCond c) := ofLong rfl rfl
theorem mvCond (c : Cond) (rd ra : Reg) : Statement (.mvCond c rd ra) := ofLong rfl rfl
theorem extsb (rd ra : Reg) (cu : Bool) : Statement (.extsb rd ra cu) := ofLong rfl rfl
theorem extsh (rd ra : Reg) (cu : Bool) : Statement (.extsh rd ra cu) := ofLong rfl rfl
theorem extzb (rd ra : Reg) (cu : Bool) : Statement (.extzb rd ra cu) := ofLong rfl rfl
theorem extzh (rd ra : Reg) (cu : Bool) : Statement (.extzh rd ra cu) := ofLong rfl rfl
theorem lcb (ra : Reg) : Statement (.lcb ra) := ofLong rfl rfl
theorem lcw (rd ra : Reg) : Statement (.lcw rd ra) := ofLong rfl rfl
theorem lce (rd ra : Reg) : Statement (.lce rd ra) := ofLong rfl rfl
theorem scb (rd ra : Reg) : Statement (.scb rd ra) := ofLong rfl rfl
theorem scw (rd ra : Reg) : Statement (.scw rd ra) := ofLong rfl rfl
theorem sce (ra : Reg) : Statement (.sce ra) := ofLong rfl rfl
theorem slli (rd ra : Reg) (sa : BitVec 5) (cu : Bool) : Statement (.slli rd ra sa cu) := ofLong rfl rfl
theorem srli (rd ra : Reg) (sa : BitVec 5) (cu : Bool) : Statement (.srli rd ra sa cu) := ofLong rfl rfl
theorem srai (rd ra : Reg) (sa : BitVec 5) (cu : Bool) : Statement (.srai rd ra sa cu) := ofLong rfl rfl
theorem rori (rd ra : Reg) (sa : BitVec 5) (cu : Bool) : Statement (.rori rd ra sa cu) := ofLong rfl rfl
theorem roli (rd ra : Reg) (sa : BitVec 5) (cu : Bool) : Statement (.roli rd ra sa cu) := ofLong rfl rfl
theorem roric (rd ra : Reg) (sa : BitVec 5) : Statement (.roric rd ra sa) := ofLong rfl rfl
theorem rolic (rd ra : Reg) (sa : BitVec 5) : Statement (.rolic rd ra sa) := ofLong rfl rfl
theorem addi (rd : Reg) (imm : BitVec 16) (cu : Bool) : Statement (.addi rd imm cu) := ofLong rfl rfl
theorem cmpi (rd : Reg) (imm : BitVec 16) : Statement (.cmpi rd imm) := ofLong rfl rfl
theorem andi (rd : Reg) (imm : BitVec 16) (cu : Bool) : Statement (.andi rd imm cu) := ofLong rfl rfl
theorem ori (rd : Reg) (imm : BitVec 16) (cu : Bool) : Statement (.ori rd imm cu) := ofLong rfl rfl
theorem ldi (rd : Reg) (imm : BitVec 16) : Statement (.ldi rd imm) := ofLong rfl rfl
theorem addis (rd : Reg) (imm : BitVec 16) (cu : Bool) : Statement (.addis rd imm cu) := ofLong rfl rfl
theorem andis (rd : Reg) (imm : BitVec 16) (cu : Bool) : Statement (.andis rd imm cu) := ofLong rfl rfl
theorem oris (rd : Reg) (imm : BitVec 16) (cu : Bool) : Statement (.oris rd imm cu) := ofLong rfl rfl
theorem ldis (rd : Reg) (imm : BitVec 16) : Statement (.ldis rd imm) := ofLong rfl rfl
theorem j (disp : BitVec 24) : Statement (.j disp) := ofLong rfl rfl
theorem jl (disp : BitVec 24) : Statement (.jl disp) := ofLong rfl rfl
theorem lwPre (rd ra : Reg) (imm : BitVec 12) : Statement (.lwPre rd ra imm) := ofLong rfl rfl
theorem lhPre (rd ra : Reg) (imm : BitVec 12) : Statement (.lhPre rd ra imm) := ofLong rfl rfl
theorem lhuPre (rd ra : Reg) (imm : BitVec 12) : Statement (.lhuPre rd ra imm) := ofLong rfl rfl
theorem lbPre (rd ra : Reg) (imm : BitVec 12) : Statement (.lbPre rd ra imm) := ofLong rfl rfl
theorem swPre (rd ra : Reg) (imm : BitVec 12) : Statement (.swPre rd ra imm) := ofLong rfl rfl
theorem shPre (rd ra : Reg) (imm : BitVec 12) : Statement (.shPre rd ra imm) := ofLong rfl rfl
theorem lbuPre (rd ra : Reg) (imm : BitVec 12) : Statement (.lbuPre rd ra imm) := ofLong rfl rfl
theorem sbPre (rd ra : Reg) (imm : BitVec 12) : Statement (.sbPre rd ra imm) := ofLong rfl rfl
theorem bCond (c : Cond) (disp : BitVec 19) : Statement (.bCond c disp) := ofLong rfl rfl
theorem bCondL (c : Cond) (disp : BitVec 19) : Statement (.bCondL c disp) := ofLong rfl rfl
theorem lwPost (rd ra : Reg) (imm : BitVec 12) : Statement (.lwPost rd ra imm) := ofLong rfl rfl
theorem lhPost (rd ra : Reg) (imm : BitVec 12) : Statement (.lhPost rd ra imm) := ofLong rfl rfl
theorem lhuPost (rd ra : Reg) (imm : BitVec 12) : Statement (.lhuPost rd ra imm) := ofLong rfl rfl
theorem lbPost (rd ra : Reg) (imm : BitVec 12) : Statement (.lbPost rd ra imm) := ofLong rfl rfl
theorem swPost (rd ra : Reg) (imm : BitVec 12) : Statement (.swPost rd ra imm) := ofLong rfl rfl
theorem shPost (rd ra : Reg) (imm : BitVec 12) : Statement (.shPost rd ra imm) := ofLong rfl rfl
theorem lbuPost (rd ra : Reg) (imm : BitVec 12) : Statement (.lbuPost rd ra imm) := ofLong rfl rfl
theorem sbPost (rd ra : Reg) (imm : BitVec 12) : Statement (.sbPost rd ra imm) := ofLong rfl rfl
theorem mtcr (rd : Reg) (crn : BitVec 5) : Statement (.mtcr rd crn) := ofLong rfl rfl
theorem mfcr (rd : Reg) (crn : BitVec 5) : Statement (.mfcr rd crn) := ofLong rfl rfl
theorem rte : Statement (.rte) := ofLong rfl rfl
theorem drte : Statement (.drte) := ofLong rfl rfl
theorem sleep : Statement (.sleep) := ofLong rfl rfl
theorem mtc (n : BitVec 2) (rd : Reg) (cra : BitVec 5) : Statement (.mtc n rd cra) := ofLong rfl rfl
theorem mfc (n : BitVec 2) (rd : Reg) (cra : BitVec 5) : Statement (.mfc n rd cra) := ofLong rfl rfl
theorem ldc (n : BitVec 2) (rd : Reg) (cra : BitVec 5) (imm : BitVec 10) : Statement (.ldc n rd cra imm) := ofLong rfl rfl
theorem stc (n : BitVec 2) (rd : Reg) (cra : BitVec 5) (imm : BitVec 10) : Statement (.stc n rd cra imm) := ofLong rfl rfl
theorem cop (n : BitVec 2) (code : BitVec 20) : Statement (.cop n code) := ofLong rfl rfl
theorem mtcc (n : BitVec 2) (rd : Reg) (cra : BitVec 5) : Statement (.mtcc n rd cra) := ofLong rfl rfl
theorem mfcc (n : BitVec 2) (rd : Reg) (cra : BitVec 5) : Statement (.mfcc n rd cra) := ofLong rfl rfl
theorem addri (rd ra : Reg) (imm : BitVec 14) (cu : Bool) : Statement (.addri rd ra imm cu) := ofLong rfl rfl
theorem andri (rd ra : Reg) (imm : BitVec 14) (cu : Bool) : Statement (.andri rd ra imm cu) := ofLong rfl rfl
theorem orri (rd ra : Reg) (imm : BitVec 14) (cu : Bool) : Statement (.orri rd ra imm cu) := ofLong rfl rfl
theorem lw (rd ra : Reg) (imm : BitVec 15) : Statement (.lw rd ra imm) := ofLong rfl rfl
theorem lh (rd ra : Reg) (imm : BitVec 15) : Statement (.lh rd ra imm) := ofLong rfl rfl
theorem lhu (rd ra : Reg) (imm : BitVec 15) : Statement (.lhu rd ra imm) := ofLong rfl rfl
theorem lb (rd ra : Reg) (imm : BitVec 15) : Statement (.lb rd ra imm) := ofLong rfl rfl
theorem sw (rd ra : Reg) (imm : BitVec 15) : Statement (.sw rd ra imm) := ofLong rfl rfl
theorem sh (rd ra : Reg) (imm : BitVec 15) : Statement (.sh rd ra imm) := ofLong rfl rfl
theorem lbu (rd ra : Reg) (imm : BitVec 15) : Statement (.lbu rd ra imm) := ofLong rfl rfl
theorem sb (rd ra : Reg) (imm : BitVec 15) : Statement (.sb rd ra imm) := ofLong rfl rfl
theorem cache (op : BitVec 5) (ra : Reg) (imm : BitVec 15) : Statement (.cache op ra imm) := ofLong rfl rfl
theorem ceinst (func5 : BitVec 5) (ra rb : Reg) (usd1 usd2 : BitVec 5) : Statement (.ceinst func5 ra rb usd1 usd2) := ofLong rfl rfl
theorem mad (ra rb : Reg) : Statement (.mad ra rb) := ofLong rfl rfl
theorem madu (ra rb : Reg) : Statement (.madu ra rb) := ofLong rfl rfl
theorem madF (ra rb : Reg) : Statement (.madF ra rb) := ofLong rfl rfl
theorem msb (ra rb : Reg) : Statement (.msb ra rb) := ofLong rfl rfl
theorem msbu (ra rb : Reg) : Statement (.msbu ra rb) := ofLong rfl rfl
theorem msbF (ra rb : Reg) : Statement (.msbF ra rb) := ofLong rfl rfl
theorem mazl (ra rb : Reg) : Statement (.mazl ra rb) := ofLong rfl rfl
theorem mazlF (ra rb : Reg) : Statement (.mazlF ra rb) := ofLong rfl rfl
theorem madl (ra rb : Reg) : Statement (.madl ra rb) := ofLong rfl rfl
theorem madlFs (ra rb : Reg) : Statement (.madlFs ra rb) := ofLong rfl rfl
theorem mszl (ra rb : Reg) : Statement (.mszl ra rb) := ofLong rfl rfl
theorem mszlF (ra rb : Reg) : Statement (.mszlF ra rb) := ofLong rfl rfl
theorem msbl (ra rb : Reg) : Statement (.msbl ra rb) := ofLong rfl rfl
theorem msblFs (ra rb : Reg) : Statement (.msblFs ra rb) := ofLong rfl rfl
theorem mazh (ra rb : Reg) : Statement (.mazh ra rb) := ofLong rfl rfl
theorem mazhF (ra rb : Reg) : Statement (.mazhF ra rb) := ofLong rfl rfl
theorem madh (ra rb : Reg) : Statement (.madh ra rb) := ofLong rfl rfl
theorem madhFs (ra rb : Reg) : Statement (.madhFs ra rb) := ofLong rfl rfl
theorem mszh (ra rb : Reg) : Statement (.mszh ra rb) := ofLong rfl rfl
theorem mszhF (ra rb : Reg) : Statement (.mszhF ra rb) := ofLong rfl rfl
theorem msbh (ra rb : Reg) : Statement (.msbh ra rb) := ofLong rfl rfl
theorem msbhFs (ra rb : Reg) : Statement (.msbhFs ra rb) := ofLong rfl rfl
theorem min (rd ra rb : Reg) : Statement (.min rd ra rb) := ofLong rfl rfl
theorem max (rd ra rb : Reg) : Statement (.max rd ra rb) := ofLong rfl rfl
theorem addS (rd ra rb : Reg) : Statement (.addS rd ra rb) := ofLong rfl rfl
theorem subS (rd ra rb : Reg) : Statement (.subS rd ra rb) := ofLong rfl rfl
theorem abs (rd ra : Reg) : Statement (.abs rd ra) := ofLong rfl rfl
theorem absS (rd ra : Reg) : Statement (.absS rd ra) := ofLong rfl rfl
theorem bitrev (rd ra rb : Reg) : Statement (.bitrev rd ra rb) := ofLong rfl rfl
theorem clz (rd ra : Reg) : Statement (.clz rd ra) := ofLong rfl rfl
theorem sllS (rd ra rb : Reg) : Statement (.sllS rd ra rb) := ofLong rfl rfl
theorem nop16 : Statement (.nop16) := ofShort rfl rfl
theorem mlfh16 (rd ra : G0) : Statement (.mlfh16 rd ra) := ofShort rfl rfl
theorem mhfl16 (rd ra : G0) : Statement (.mhfl16 rd ra) := ofShort rfl rfl
theorem mv16 (rd ra : G0) : Statement (.mv16 rd ra) := ofShort rfl rfl
theorem brCond16 (c : Cond) (ra : G0) : Statement (.brCond16 c ra) := ofShort rfl rfl
theorem tCond16 (c : Cond) : Statement (.tCond16 c) := ofShort rfl rfl
theorem sll16 (rd ra : G0) : Statement (.sll16 rd ra) := ofShort rfl rfl
theorem addc16 (rd ra : G0) : Statement (.addc16 rd ra) := ofShort rfl rfl
theorem srl16 (rd ra : G0) : Statement (.srl16 rd ra) := ofShort rfl rfl
theorem sra16 (rd ra : G0) : Statement (.sra16 rd ra) := ofShort rfl rfl
theorem mtcel16 (ra : G0) : Statement (.mtcel16 ra) := ofShort rfl rfl
theorem mtceh16 (ra : G0) : Statement (.mtceh16 ra) := ofShort rfl rfl
theorem mfcel16 (ra : G0) : Statement (.mfcel16 ra) := ofShort rfl rfl
theorem mfceh16 (ra : G0) : Statement (.mfceh16 ra) := ofShort rfl rfl
theorem mulF16 (ra rb : G0) : Statement (.mulF16 ra rb) := ofShort rfl rfl
theorem mulu16 (ra rb : G0) : Statement (.mulu16 ra rb) := ofShort rfl rfl
theorem madF16 (ra rb : G0) : Statement (.madF16 ra rb) := ofShort rfl rfl
theorem madu16 (ra rb : G0) : Statement (.madu16 ra rb) := ofShort rfl rfl
theorem msbF16 (ra rb : G0) : Statement (.msbF16 ra rb) := ofShort rfl rfl
theorem msbu16 (ra rb : G0) : Statement (.msbu16 ra rb) := ofShort rfl rfl
theorem mazlF16 (ra rb : G0) : Statement (.mazlF16 ra rb) := ofShort rfl rfl
theorem mazhF16 (ra rb : G0) : Statement (.mazhF16 ra rb) := ofShort rfl rfl
theorem madlFs16 (ra rb : G0) : Statement (.madlFs16 ra rb) := ofShort rfl rfl
theorem madhFs16 (ra rb : G0) : Statement (.madhFs16 ra rb) := ofShort rfl rfl
theorem mszlF16 (ra rb : G0) : Statement (.mszlF16 ra rb) := ofShort rfl rfl
theorem mszhF16 (ra rb : G0) : Statement (.mszhF16 ra rb) := ofShort rfl rfl
theorem msblFs16 (ra rb : G0) : Statement (.msblFs16 ra rb) := ofShort rfl rfl
theorem msbhFs16 (ra rb : G0) : Statement (.msbhFs16 ra rb) := ofShort rfl rfl
theorem add16 (rd ra : G0) : Statement (.add16 rd ra) := ofShort rfl rfl
theorem sub16 (rd ra : G0) : Statement (.sub16 rd ra) := ofShort rfl rfl
theorem neg16 (rd ra : G0) : Statement (.neg16 rd ra) := ofShort rfl rfl
theorem cmp16 (rd ra : G0) : Statement (.cmp16 rd ra) := ofShort rfl rfl
theorem and16 (rd ra : G0) : Statement (.and16 rd ra) := ofShort rfl rfl
theorem or16 (rd ra : G0) : Statement (.or16 rd ra) := ofShort rfl rfl
theorem not16 (rd ra : G0) : Statement (.not16 rd ra) := ofShort rfl rfl
theorem xor16 (rd ra : G0) : Statement (.xor16 rd ra) := ofShort rfl rfl
theorem lw16 (rd ra : G0) : Statement (.lw16 rd ra) := ofShort rfl rfl
theorem lh16 (rd ra : G0) : Statement (.lh16 rd ra) := ofShort rfl rfl
theorem pop16 (rd : G0) (h : Bool) (base : BitVec 3) : Statement (.pop16 rd h base) := ofShort rfl rfl
theorem lbu16 (rd ra : G0) : Statement (.lbu16 rd ra) := ofShort rfl rfl
theorem sw16 (rd ra : G0) : Statement (.sw16 rd ra) := ofShort rfl rfl
theorem sh16 (rd ra : G0) : Statement (.sh16 rd ra) := ofShort rfl rfl
theorem push16 (rd : G0) (h : Bool) (base : BitVec 3) : Statement (.push16 rd h base) := ofShort rfl rfl
theorem sb16 (rd ra : G0) : Statement (.sb16 rd ra) := ofShort rfl rfl
theorem j16 (disp : BitVec 11) : Statement (.j16 disp) := ofShort rfl rfl
theorem jl16 (disp : BitVec 11) : Statement (.jl16 disp) := ofShort rfl rfl
theorem bCond16 (c : Cond) (disp : BitVec 8) : Statement (.bCond16 c disp) := ofShort rfl rfl
theorem ldiu16 (rd : G0) (imm : BitVec 8) : Statement (.ldiu16 rd imm) := ofShort rfl rfl
theorem addei16 (rd : G0) (exp : BitVec 4) : Statement (.addei16 rd exp) := ofShort rfl rfl
theorem subei16 (rd : G0) (exp : BitVec 4) : Statement (.subei16 rd exp) := ofShort rfl rfl
theorem slli16 (rd : G0) (sa : BitVec 5) : Statement (.slli16 rd sa) := ofShort rfl rfl
theorem sdbbp16 (code : BitVec 5) : Statement (.sdbbp16 code) := ofShort rfl rfl
theorem srli16 (rd : G0) (sa : BitVec 5) : Statement (.srli16 rd sa) := ofShort rfl rfl
theorem bittst16 (rd : G0) (bn : BitVec 5) : Statement (.bittst16 rd bn) := ofShort rfl rfl
theorem lwp16 (rd : G0) (imm : BitVec 5) : Statement (.lwp16 rd imm) := ofShort rfl rfl
theorem lhp16 (rd : G0) (imm : BitVec 5) : Statement (.lhp16 rd imm) := ofShort rfl rfl
theorem lbup16 (rd : G0) (imm : BitVec 5) : Statement (.lbup16 rd imm) := ofShort rfl rfl
theorem swp16 (rd : G0) (imm : BitVec 5) : Statement (.swp16 rd imm) := ofShort rfl rfl
theorem shp16 (rd : G0) (imm : BitVec 5) : Statement (.shp16 rd imm) := ofShort rfl rfl
theorem sbp16 (rd : G0) (imm : BitVec 5) : Statement (.sbp16 rd imm) := ofShort rfl rfl

end Sys2Proof.Laws.EncodeShape
end

