-- ==== Sys2Proof/Laws/Runs.lean ====
section
/-! SUPPORT. What the run of R765 says of BubblesRespected. -/

namespace Sys2Proof.Machine

/-- A run that refuses for a missing bubble has executed instructions that break BubblesRespected. -/
theorem runFrom_bubbleMissing {haltPc : Word} {n : Nat} {p : Slots} {s t : State} {i : Instr}
    (h : runFrom haltPc n p s = .bubbleMissing i t) : bubblesFrom p (executedIn n s) = false := by
  have hend : ∀ u : State, u.ended haltPc ≠ some (.bubbleMissing i t) := by
    intro u; simp only [State.ended]; split_ifs <;> simp
  induction n generalizing p s with
  | zero =>
    simp only [runFrom] at h
    cases he : s.ended haltPc with
    | none => simp [he] at h
    | some e => simp only [he, Option.getD_some] at h; exact absurd (h ▸ he) (hend s)
  | succ n ih =>
    simp only [runFrom] at h
    simp only [executedIn]
    cases he : s.ended haltPc with
    | some e =>
      simp only [he] at h
      exact absurd (h ▸ he) (hend s)
    | none =>
      cases hx : s.executed with
      | none =>
        simp only [he, hx] at h
        cases hs : step s <;> simp [hs] at h
        simpa using ih h
      | some j =>
        simp only [he, hx] at h
        by_cases hv : violates p j = true
        · cases hs : step s <;> simp [bubblesFrom, hv]
        · simp only [hv, Bool.false_eq_true, if_false] at h
          cases hs : step s <;> simp [hs] at h
          simpa [bubblesFrom, hv] using ih h

/-- A run that refuses for a missing bubble does not respect the bubbles. -/
theorem run_bubbleMissing {haltPc : Word} {n : Nat} {s t : State} {i : Instr}
    (h : run haltPc n s = .bubbleMissing i t) : bubblesRespected n s = false := runFrom_bubbleMissing h

end Sys2Proof.Machine
end

