-- ==== Sys2Proof/Tests/Slice0.lean ====
section
/-! SUPPORT. Tests: what WellFormed refuses; a word for every constructor, written out from its row of the spec's encoding tables; one step of vectors that the spec prints (95_test_vectors.md, 96_test_vectors_2.md); and, for every statement that has hypotheses, a state that meets them. -/

namespace Sys2Proof.Tests

open Sys2Proof Sys2Proof.Machine

/-! ## WellFormed refuses what the opcode table excludes -/

theorem test_ill_formed_mfsr : (Instr.mfsr 4 3).wellFormed = false ∧ (Instr.mfsr 4 2).wellFormed = true := by decide
theorem test_ill_formed_mtsr : (Instr.mtsr 4 31).wellFormed = false ∧ (Instr.mtsr 4 0).wellFormed = true := by decide
theorem test_ill_formed_mtc : (Instr.mtc 0 4 1).wellFormed = false := by decide
theorem test_ill_formed_mfc : (Instr.mfc 0 4 1).wellFormed = false := by decide
theorem test_ill_formed_mtcc : (Instr.mtcc 0 4 1).wellFormed = false := by decide
theorem test_ill_formed_mfcc : (Instr.mfcc 0 4 1).wellFormed = false := by decide
theorem test_ill_formed_ldc : (Instr.ldc 0 4 1 2).wellFormed = false := by decide
theorem test_ill_formed_stc : (Instr.stc 0 4 1 2).wellFormed = false := by decide
theorem test_ill_formed_cop : (Instr.cop 0 5).wellFormed = false := by decide

/-! ## Decoding: words written out from the spec's encoding of each instruction -/

/-- Each word decodes to the instruction beside it. -/
def reads (nbits : Nat) (words : List (Nat × Instr)) : Bool :=
  words.all fun p => decodeTableWord nbits p.1 == some p.2

/-- `add r4, r3, r2` field by field (R126, R131, R121): P, OP, rD, rA, P, rA's low bit and rB, 000, func6, CU. -/
theorem test_decode_add_by_fields :
    decodeTableWord 32 (1#1 ++ 0b00000#5 ++ 0b00100#5 ++ 0b00011#5 ++ 1#1 ++ 0b00010#5 ++ 0b000#3 ++ 0b001000#6 ++
      0#1 : BitVec 32).toNat = some (.add 4 3 2 false) := by decide +kernel

/-- `push! r10, [r5]` field by field (R127, R142): P, OP, rD, H, the base register, func4. -/
theorem test_decode_push_by_fields :
    decodeTableWord 16 (0#1 ++ 0b010#3 ++ 0b1010#4 ++ 0#1 ++ 0b101#3 ++ 0b1110#4 : BitVec 16).toNat =
      some (.push16 10 false 5) := by decide +kernel

theorem test_decode_nop_to_or : reads 32 [
    (0x80008000, .nop), (0x829CD802, .syscall 21398), (0x80149C04, .trapCond .le 20),
    (0x80148006, .sdbbp 20), (0x80039C08, .brCond .le 3), (0x80039C09, .brCondL .le 3),
    (0x8000800A, .pflush), (0x80838811, .add 4 3 2 true), (0x80838813, .addc 4 3 2 true),
    (0x80838815, .sub 4 3 2 true), (0x80838817, .subc 4 3 2 true), (0x80238819, .cmp .tmi 3 2),
    (0x8023801B, .cmpz .tmi 3), (0x8080881F, .neg 4 2 true), (0x80838821, .and 4 3 2 true),
    (0x80838823, .or 4 3 2 true)] = true := by decide

theorem test_decode_not_to_mfcel : reads 32 [
    (0x80838025, .not 4 3 true), (0x80838827, .xor 4 3 2 true), (0x8003A82D, .bittst 3 10),
    (0x80838831, .sll 4 3 2 true), (0x80838835, .srl 4 3 2 true), (0x80838837, .sra 4 3 2 true),
    (0x80838839, .ror 4 3 2 true), (0x8083883D, .rol 4 3 2 true), (0x8083883B, .rorc 4 3 2),
    (0x8083883F, .rolc 4 3 2), (0x80038840, .mul 3 2), (0x80038841, .mulF 3 2),
    (0x80038842, .mulu 3 2), (0x80038844, .div 3 2), (0x80038846, .divu 3 2),
    (0x80808448, .mfcel 4)] = true := by decide

theorem test_decode_mfceh_to_lcb : reads 32 [
    (0x80808848, .mfceh 4), (0x80838C48, .mfcehl 4 3), (0x80808048, .mfcex0 4),
    (0x8080844A, .mtcel 4), (0x8080884A, .mtceh 4), (0x80838C4A, .mtcehl 4 3),
    (0x8080804A, .mtcex0 4), (0x80808450, .mfsr 4 1), (0x80038452, .mtsr 3 1),
    (0x80009C54, .tCond .le), (0x80839C56, .mvCond .le 4 3), (0x80838059, .extsb 4 3 true),
    (0x8083805B, .extsh 4 3 true), (0x8083805D, .extzb 4 3 true), (0x8083805F, .extzh 4 3 true),
    (0x80038060, .lcb 3)] = true := by decide

theorem test_decode_lcw_to_ori : reads 32 [
    (0x80838062, .lcw 4 3), (0x80838066, .lce 4 3), (0x80838068, .scb 4 3),
    (0x8083806A, .scw 4 3), (0x8003806E, .sce 3), (0x8083A471, .slli 4 3 9 true),
    (0x8083A475, .srli 4 3 9 true), (0x8083A477, .srai 4 3 9 true), (0x8083A479, .rori 4 3 9 true),
    (0x8083A47D, .roli 4 3 9 true), (0x8083A47B, .roric 4 3 9), (0x8083A47F, .rolic 4 3 9),
    (0x8482CE5B, .addi 4 42797 true), (0x848ACE5B, .cmpi 4 42797), (0x8492CE5B, .andi 4 42797 true),
    (0x8496CE5B, .ori 4 42797 true)] = true := by decide

theorem test_decode_ldi_to_bCond : reads 32 [
    (0x849ACE5A, .ldi 4 42797), (0x9482CE5B, .addis 4 42797 true), (0x9492CE5B, .andis 4 42797 true),
    (0x9496CE5B, .oris 4 42797 true), (0x949ACE5A, .ldis 4 42797), (0x8A9CDB94, .j 10956234),
    (0x8A9CDB95, .jl 10956234), (0x8C83D390, .lwPre 4 3 2674), (0x8C83D391, .lhPre 4 3 2674),
    (0x8C83D392, .lhuPre 4 3 2674), (0x8C83D393, .lbPre 4 3 2674), (0x8C83D394, .swPre 4 3 2674),
    (0x8C83D395, .shPre 4 3 2674), (0x8C83D396, .lbuPre 4 3 2674), (0x8C83D397, .sbPre 4 3 2674),
    (0x929C9EDC, .bCond .le 342382)] = true := by decide

theorem test_decode_bCondL_to_mfc : reads 32 [
    (0x929C9EDD, .bCondL .le 342382), (0x9C83D390, .lwPost 4 3 2674), (0x9C83D391, .lhPost 4 3 2674),
    (0x9C83D392, .lhuPost 4 3 2674), (0x9C83D393, .lbPost 4 3 2674), (0x9C83D394, .swPost 4 3 2674),
    (0x9C83D395, .shPost 4 3 2674), (0x9C83D396, .lbuPost 4 3 2674), (0x9C83D397, .sbPost 4 3 2674),
    (0x98858000, .mtcr 4 5), (0x98858001, .mfcr 4 5), (0x98008084, .rte),
    (0x980080A4, .drte), (0x980080C4, .sleep), (0x98878010, .mtc 2 4 7),
    (0x98878011, .mfc 2 4 7)] = true := by decide

theorem test_decode_ldc_to_sb : reads 32 [
    (0x9887D392, .ldc 2 4 7 668), (0x9887D393, .stc 2 4 7 668), (0x9A9CDB94, .cop 2 684764),
    (0x98878016, .mtcc 2 4 7), (0x98878017, .mfcc 2 4 7), (0xA083D397, .addri 4 3 10699 true),
    (0xB083D397, .andri 4 3 10699 true), (0xB483D397, .orri 4 3 10699 true), (0xC083D396, .lw 4 3 21398),
    (0xC483D396, .lh 4 3 21398), (0xC883D396, .lhu 4 3 21398), (0xCC83D396, .lb 4 3 21398),
    (0xD083D396, .sw 4 3 21398), (0xD483D396, .sh 4 3 21398), (0xD883D396, .lbu 4 3 21398),
    (0xDC83D396, .sb 4 3 21398)] = true := by decide

theorem test_decode_cache_to_msblFs : reads 32 [
    (0xE3C3D396, .cache 30 3 21398), (0xE8238A26, .ceinst 6 3 2 1 17), (0xF0038800, .mad 3 2),
    (0xF0038820, .madu 3 2), (0xF0038880, .madF 3 2), (0xF0038801, .msb 3 2),
    (0xF0038821, .msbu 3 2), (0xF0038881, .msbF 3 2), (0xF0038902, .mazl 3 2),
    (0xF0038982, .mazlF 3 2), (0xF0038802, .madl 3 2), (0xF00388C2, .madlFs 3 2),
    (0xF0038904, .mszl 3 2), (0xF0038984, .mszlF 3 2), (0xF0038804, .msbl 3 2),
    (0xF00388C4, .msblFs 3 2)] = true := by decide

theorem test_decode_mazh_to_clz : reads 32 [
    (0xF0038B03, .mazh 3 2), (0xF0038B83, .mazhF 3 2), (0xF0038A03, .madh 3 2),
    (0xF0038AC3, .madhFs 3 2), (0xF0038B05, .mszh 3 2), (0xF0038B85, .mszhF 3 2),
    (0xF0038A05, .msbh 3 2), (0xF0038AC5, .msbhFs 3 2), (0xF0838806, .min 4 3 2),
    (0xF0838807, .max 4 3 2), (0xF0838848, .addS 4 3 2), (0xF0838849, .subS 4 3 2),
    (0xF083800A, .abs 4 3), (0xF083804B, .absS 4 3), (0xF083880C, .bitrev 4 3 2),
    (0xF083800D, .clz 4 3)] = true := by decide

theorem test_decode_sllS_to_sllS : reads 32 [
    (0xF083884E, .sllS 4 3 2)] = true := by decide

theorem test_decode_nop16_to_mulu16 : reads 16 [
    (0x0000, .nop16), (0x0D61, .mlfh16 13 6), (0x0D62, .mhfl16 13 6),
    (0x0D63, .mv16 13 6), (0x0764, .brCond16 .le 6), (0x0705, .tCond16 .le),
    (0x0D68, .sll16 13 6), (0x0D69, .addc16 13 6), (0x0D6A, .srl16 13 6),
    (0x0D6B, .sra16 13 6), (0x1060, .mtcel16 6), (0x1160, .mtceh16 6),
    (0x1061, .mfcel16 6), (0x1161, .mfceh16 6), (0x1692, .mulF16 6 9),
    (0x1693, .mulu16 6 9)] = true := by decide

theorem test_decode_madF16_to_cmp16 : reads 16 [
    (0x1694, .madF16 6 9), (0x1695, .madu16 6 9), (0x1696, .msbF16 6 9),
    (0x1697, .msbu16 6 9), (0x1698, .mazlF16 6 9), (0x1699, .mazhF16 6 9),
    (0x169A, .madlFs16 6 9), (0x169B, .madhFs16 6 9), (0x169C, .mszlF16 6 9),
    (0x169D, .mszhF16 6 9), (0x169E, .msblFs16 6 9), (0x169F, .msbhFs16 6 9),
    (0x2D60, .add16 13 6), (0x2D61, .sub16 13 6), (0x2D62, .neg16 13 6),
    (0x2D63, .cmp16 13 6)] = true := by decide

theorem test_decode_and16_to_ldiu16 : reads 16 [
    (0x2D64, .and16 13 6), (0x2D65, .or16 13 6), (0x2D66, .not16 13 6),
    (0x2D67, .xor16 13 6), (0x2D68, .lw16 13 6), (0x2D69, .lh16 13 6),
    (0x2DDA, .pop16 13 true 5), (0x2D6B, .lbu16 13 6), (0x2D6C, .sw16 13 6),
    (0x2D6D, .sh16 13 6), (0x2DDE, .push16 13 true 5), (0x2D6F, .sb16 13 6),
    (0x3A72, .j16 1337), (0x3A73, .jl16 1337), (0x47A7, .bCond16 .le 167),
    (0x5DA7, .ldiu16 13 167)] = true := by decide

theorem test_decode_addei16_to_sbp16 : reads 16 [
    (0x6D58, .addei16 13 11), (0x6DD8, .subei16 13 11), (0x6D49, .slli16 13 9),
    (0x60A2, .sdbbp16 20), (0x6D4B, .srli16 13 9), (0x6D57, .bittst16 13 10),
    (0x7DA0, .lwp16 13 20), (0x7DA1, .lhp16 13 20), (0x7DA3, .lbup16 13 20),
    (0x7DA4, .swp16 13 20), (0x7DA5, .shp16 13 20), (0x7DA7, .sbp16 13 20)] = true := by decide

/-- A reserved encoding is refused: an unassigned func6, CP# = 00, Srn above 2, a bit that must be zero. -/
theorem test_decode_reserved :
    decodeTableWord 32 0x8000800C = none ∧ decodeTableWord 32 0x98008002 = none ∧
      decodeTableWord 32 0x80808C50 = none ∧ decodeTableWord 32 0x80108000 = none := by decide +kernel

/-- In little endian the half-word with bits 14:0 comes first (R83). -/
theorem test_decode_little_endian :
    decode true 0x8810 0x8083 = .ok (.add 4 3 2 false) ∧ decode false 0x8083 0x8810 = .ok (.add 4 3 2 false) ∧
      decode false 0x8083 0x0810 = .error .pcePair := by decide +kernel

/-! ## One step of vectors that the spec prints -/

/-- The state after reset with some general registers written, and the flags N, Z, C, V, T. -/
def start (rs : List (Reg × Word)) (f : BitVec 5 := 0) : State :=
  { rs.foldl (fun s p => s.setReg p.1 p.2) State.reset with
    flags := { n := f.getLsbD 4, z := f.getLsbD 3, c := f.getLsbD 2, v := f.getLsbD 1, t := f.getLsbD 0 } }

/-- The flags N, Z, C, V, T in this order, as the vectors print them. -/
def nzcvt (f : Flags) : BitVec 5 :=
  BitVec.ofBool f.n ++ BitVec.ofBool f.z ++ BitVec.ofBool f.c ++ BitVec.ofBool f.v ++ BitVec.ofBool f.t

/-- One step with this instruction at pc answers a next state of which `p` holds. -/
def gives (s : State) (nbits w : Nat) (p : State → Bool) : Bool :=
  match step (s.withFetchWord nbits w) with
  | .next t => p t
  | .fault _ | .refused _ => false

/-- V4: `add.c r4, r3, r2` (R181). -/
theorem test_V4_add_c : gives (start [(3, 0x80000000), (2, 0x80000000)]) 32 0x80838811 (fun t =>
    t.reg 4 == 0x00000000 && nzcvt t.flags == 0b01110 && t.pc == 0x1004) = true := by decide

/-- V6: `addc.c r4, r3, r2` (R182). -/
theorem test_V6_addc_c : gives (start [(3, 0xffffffff), (2, 0x0)] 0b00100) 32 0x80838813 (fun t =>
    t.reg 4 == 0x00000000 && nzcvt t.flags == 0b01100 && t.pc == 0x1004) = true := by decide

/-- V10: `addi.c r4, -1` (R183). -/
theorem test_V10_addi_c : gives (start [(4, 0x1)]) 32 0x8483FFFF (fun t =>
    t.reg 4 == 0x00000000 && nzcvt t.flags == 0b01100 && t.pc == 0x1004) = true := by decide

/-- V13: `addis.c r4, 0x0001` (R184). -/
theorem test_V13_addis_c : gives (start [(4, 0x7fff0000)]) 32 0x94808003 (fun t =>
    t.reg 4 == 0x80000000 && nzcvt t.flags == 0b10010 && t.pc == 0x1004) = true := by decide

/-- V16: `addri.c r4, r3, -8192` (R185). -/
theorem test_V16_addri_c : gives (start [(3, 0x2000)]) 32 0xA083C001 (fun t =>
    t.reg 4 == 0x00000000 && nzcvt t.flags == 0b01100 && t.pc == 0x1004) = true := by decide

/-- V17: `sub.c r4, r2, r3` (R186). -/
theorem test_V17_sub_c : gives (start [(2, 0x5), (3, 0x5)]) 32 0x80828C15 (fun t =>
    t.reg 4 == 0x00000000 && nzcvt t.flags == 0b01100 && t.pc == 0x1004) = true := by decide

/-- V21: `subc.c r4, r2, r3` (R187). -/
theorem test_V21_subc_c : gives (start [(2, 0x5), (3, 0x3)] 0b00100) 32 0x80828C17 (fun t =>
    t.reg 4 == 0x00000002 && nzcvt t.flags == 0b00100 && t.pc == 0x1004) = true := by decide

/-- V25: `neg.c r4, r3` (R188). -/
theorem test_V25_neg_c : gives (start [(3, 0x0)]) 32 0x80808C1F (fun t =>
    t.reg 4 == 0x00000000 && nzcvt t.flags == 0b01100 && t.pc == 0x1004) = true := by decide

/-- V40: `and.c r4, r3, r2` (R190). -/
theorem test_V40_and_c : gives (start [(3, 0xf0f0f0f0), (2, 0xf0f0f0f)]) 32 0x80838821 (fun t =>
    t.reg 4 == 0x00000000 && nzcvt t.flags == 0b01000 && t.pc == 0x1004) = true := by decide

/-- V48: `ori r4, 0x8000` (R195). -/
theorem test_V48_ori : gives (start [(4, 0x0)]) 32 0x84968000 (fun t =>
    t.reg 4 == 0x00008000 && t.pc == 0x1004) = true := by decide

/-- V51: `xor.c r4, r2, r3` (R198). -/
theorem test_V51_xor_c : gives (start [(2, 0x12345678), (3, 0x12345678)]) 32 0x80828C27 (fun t =>
    t.reg 4 == 0x00000000 && nzcvt t.flags == 0b01000 && t.pc == 0x1004) = true := by decide

/-- V52: `not.c r4, r2` (R199). -/
theorem test_V52_not_c : gives (start [(2, 0x0)]) 32 0x80828025 (fun t =>
    t.reg 4 == 0xFFFFFFFF && nzcvt t.flags == 0b10000 && t.pc == 0x1004) = true := by decide

/-- V27: `cmp.c r2, r3` (R200). -/
theorem test_V27_cmp_c : gives (start [(2, 0x7), (3, 0x7)] 0b00001) 32 0x80628C19 (fun t =>
    nzcvt t.flags == 0b01101 && t.pc == 0x1004) = true := by decide

/-- V35: `cmpzteq.c r25` (R201). -/
theorem test_V35_cmpzteq_c : gives (start [(25, 0x0)]) 32 0x8019801B (fun t =>
    nzcvt t.flags == 0b01101 && t.pc == 0x1004) = true := by decide

/-- V37: `cmpi.c r4, 5` (R202). -/
theorem test_V37_cmpi_c : gives (start [(4, 0x5)]) 32 0x8488800B (fun t =>
    nzcvt t.flags == 0b01100 && t.pc == 0x1004) = true := by decide

/-- V54: `bittst.c r2, 0x0a` (R203). -/
theorem test_V54_bittst_c : gives (start [(2, 0x80000000)]) 32 0x8002A82D (fun t =>
    nzcvt t.flags == 0b11000 && t.pc == 0x1004) = true := by decide

/-- V56: `ldi r4, 0xabcd` (R204). -/
theorem test_V56_ldi : gives (start []) 32 0x849AD79A (fun t =>
    t.reg 4 == 0xFFFFABCD && t.pc == 0x1004) = true := by decide

/-- V58: `ldis r4, 0xabcd` (R205). -/
theorem test_V58_ldis : gives (start [(4, 0xffffffff)]) 32 0x949AD79A (fun t =>
    t.reg 4 == 0xABCD0000 && t.pc == 0x1004) = true := by decide

/-- V59: `sll.c r4, r2, r3` (R230). -/
theorem test_V59_sll_c : gives (start [(2, 0x80000001), (3, 0x1)]) 32 0x80828C31 (fun t =>
    t.reg 4 == 0x00000002 && nzcvt t.flags == 0b00100 && t.pc == 0x1004) = true := by decide

/-- V65: `srl.c r4, r2, r3` (R232). -/
theorem test_V65_srl_c : gives (start [(2, 0x80000001), (3, 0x1)]) 32 0x80828C35 (fun t =>
    t.reg 4 == 0x40000000 && nzcvt t.flags == 0b00100 && t.pc == 0x1004) = true := by decide

/-- V68: `sra.c r4, r2, r3` (R234). -/
theorem test_V68_sra_c : gives (start [(2, 0x80000000), (3, 0x4)]) 32 0x80828C37 (fun t =>
    t.reg 4 == 0xF8000000 && nzcvt t.flags == 0b10000 && t.pc == 0x1004) = true := by decide

/-- V74: `rol.c r4, r2, r3` (R238). -/
theorem test_V74_rol_c : gives (start [(2, 0x80000001), (3, 0x1)]) 32 0x80828C3D (fun t =>
    t.reg 4 == 0x00000003 && t.flags.c == true && t.flags.v == false && t.flags.t == false && t.pc == 0x1004) = true := by decide

/-- V76: `ror.c r4, r2, r6` (R240). -/
theorem test_V76_ror_c : gives (start [(2, 0x1), (6, 0x1)]) 32 0x80829839 (fun t =>
    t.reg 4 == 0x80000000 && t.flags.c == true && t.flags.v == false && t.flags.t == false && t.pc == 0x1004) = true := by decide

/-- V82: `rorc.c r4, r2, r4` (R242). -/
theorem test_V82_rorc_c : gives (start [(2, 0x80000000), (4, 0x0)] 0b00100) 32 0x8082903B (fun t =>
    t.reg 4 == 0x80000000 && nzcvt t.flags == 0b10100 && t.pc == 0x1004) = true := by decide

/-- V84: `roric.c r4, r2, 0xE` (R243). -/
theorem test_V84_roric_c : gives (start [(2, 0x2001)] 0b00100) 32 0x8082B87B (fun t =>
    t.reg 4 == 0x000C0000 && nzcvt t.flags == 0b00100 && t.pc == 0x1004) = true := by decide

/-- V85: `rolc.c r4, r2, r5` (R244). -/
theorem test_V85_rolc_c : gives (start [(2, 0x80000000), (5, 0x1)]) 32 0x8082943F (fun t =>
    t.reg 4 == 0x00000000 && nzcvt t.flags == 0b00100 && t.pc == 0x1004) = true := by decide

/-- V88: `rolic.c r4, r2, 0xE` (R245). -/
theorem test_V88_rolic_c : gives (start [(2, 0x40001)] 0b00100) 32 0x8082B87F (fun t =>
    t.reg 4 == 0x00006000 && nzcvt t.flags == 0b00100 && t.pc == 0x1004) = true := by decide

/-- V90: `extsb.c r4, r2` (R246). -/
theorem test_V90_extsb_c : gives (start [(2, 0x12345680)]) 32 0x80828059 (fun t =>
    t.reg 4 == 0xFFFFFF80 && t.flags.n == true && t.flags.c == false && t.flags.v == false && t.flags.t == false && t.pc == 0x1004) = true := by decide

/-- V92: `extsh r4, r2` (R247). -/
theorem test_V92_extsh : gives (start [(2, 0x12348000)]) 32 0x8082805A (fun t =>
    t.reg 4 == 0xFFFF8000 && t.pc == 0x1004) = true := by decide

/-- V93: `extzb r4, r2` (R248). -/
theorem test_V93_extzb : gives (start [(2, 0xffffffff)]) 32 0x8082805C (fun t =>
    t.reg 4 == 0x000000FF && t.pc == 0x1004) = true := by decide

/-- V95: `extzh r4, r2` (R249). -/
theorem test_V95_extzh : gives (start [(2, 0xffffffff)]) 32 0x8082805E (fun t =>
    t.reg 4 == 0x0000FFFF && t.pc == 0x1004) = true := by decide

/-- V96: `beq 0x1008` (R274). -/
theorem test_V96_beq : gives (start [] 0b01000) 32 0x90009008 (fun t =>
    nzcvt t.flags == 0b01000 && t.pc == 0x1008) = true := by decide

/-- V104: `bcsl 0x0FFC` (R275). -/
theorem test_V104_bcsl : gives (start [] 0b00100) 32 0x93FF83FD (fun t =>
    t.reg 3 == 0x00001004 && nzcvt t.flags == 0b00100 && t.pc == 0xffc) = true := by decide

/-- V106: `breq r3` (R276). -/
theorem test_V106_breq : gives (start [(3, 0x2000)] 0b01000) 32 0x80039008 (fun t =>
    nzcvt t.flags == 0b01000 && t.pc == 0x2000) = true := by decide

/-- V109: `breql r3` (R277). -/
theorem test_V109_breql : gives (start [(3, 0x2000)] 0b01000) 32 0x80039009 (fun t =>
    t.reg 3 == 0x00001004 && nzcvt t.flags == 0b01000 && t.pc == 0x2000) = true := by decide

/-- V112: `j 0x100` (R278). -/
theorem test_V112_j : gives (start []) 32 0x88008100 (fun t =>
    t.pc == 0x100) = true := by decide

/-- V115: `mveq r4, r2` (R286). -/
theorem test_V115_mveq : gives (start [(2, 0x55), (4, 0xaa)] 0b01000) 32 0x80829056 (fun t =>
    t.reg 4 == 0x00000055 && nzcvt t.flags == 0b01000 && t.pc == 0x1004) = true := by decide

/-- V119: `tvs` (R288). -/
theorem test_V119_tvs : gives (start [] 0b00010) 32 0x8000B054 (fun t =>
    nzcvt t.flags == 0b00011 && t.pc == 0x1004) = true := by decide

/-- V125: `lw r4, [r2, 0x120]` (R301). -/
theorem test_V125_lw : gives (((start [(2, 0x2000)]).write 0x2120 [0x11, 0x22, 0x33, 0x44, 0x80, 0x01, 0x7F, 0xFF])) 32 0xC0828120 (fun t =>
    t.reg 4 == 0x11223344 && t.pc == 0x1004) = true := by decide

/-- V127: `lw r4, [r2]+, 0x124` (R302). -/
theorem test_V127_lw : gives (((start [(2, 0x2120)]).write 0x2120 [0x11, 0x22, 0x33, 0x44, 0x80, 0x01, 0x7F, 0xFF])) 32 0x9C828920 (fun t =>
    t.reg 2 == 0x00002244 && t.reg 4 == 0x11223344 && t.pc == 0x1004) = true := by decide

/-- V128: `lw r4, [r2, 0x124]+` (R303). -/
theorem test_V128_lw : gives (((start [(2, 0x2000)]).write 0x2120 [0x11, 0x22, 0x33, 0x44, 0x80, 0x01, 0x7F, 0xFF])) 32 0x8C828920 (fun t =>
    t.reg 2 == 0x00002124 && t.reg 4 == 0x80017FFF && t.pc == 0x1004) = true := by decide

/-- V134: `lbu r4, [r2, 0x124]` (R313). -/
theorem test_V134_lbu : gives (((start [(2, 0x2000)]).write 0x2120 [0x11, 0x22, 0x33, 0x44, 0x80, 0x01, 0x7F, 0xFF])) 32 0xD8828124 (fun t =>
    t.reg 4 == 0x00000080 && t.pc == 0x1004) = true := by decide

/-- V136: `lbu r4, [r2, 0x123]+` (R315). -/
theorem test_V136_lbu : gives (((start [(2, 0x2004)]).write 0x2120 [0x11, 0x22, 0x33, 0x44, 0x80, 0x01, 0x7F, 0xFF])) 32 0x8C82891E (fun t =>
    t.reg 2 == 0x00002127 && t.reg 4 == 0x000000FF && t.pc == 0x1004) = true := by decide

/-- V138: `sw r4, [r2, 0x124]` (R316). -/
theorem test_V138_sw : gives (start [(2, 0x3000), (4, 0xaabbccdd)]) 32 0xD0828124 (fun t =>
    t.pc == 0x1004 && t.byte 0x3124 == 0xAA && t.byte 0x3125 == 0xBB && t.byte 0x3126 == 0xCC && t.byte 0x3127 == 0xDD) = true := by decide

/-- V141: `sw r4, [r2]+, 0x124` (R317). -/
theorem test_V141_sw : gives (start [(2, 0x3000), (4, 0xaabbccdd)]) 32 0x9C828924 (fun t =>
    t.reg 2 == 0x00003124 && t.pc == 0x1004 && t.byte 0x3000 == 0xAA && t.byte 0x3001 == 0xBB && t.byte 0x3002 == 0xCC && t.byte 0x3003 == 0xDD) = true := by decide

/-- V142: `sw r2, [r0, -4]+` (R318). -/
theorem test_V142_sw : gives (start [(0, 0x8000), (2, 0xcafebabe)]) 32 0x8C40FFE4 (fun t =>
    t.reg 0 == 0x00007FFC && t.pc == 0x1004 && t.byte 0x7ffc == 0xCA && t.byte 0x7ffd == 0xFE && t.byte 0x7ffe == 0xBA && t.byte 0x7fff == 0xBE) = true := by decide

/-- V149: `lcb [r2]+` (R331). -/
theorem test_V149_lcb : gives (((start [(2, 0x1ff9)]).write 0x1FF8 [0x00, 0x11, 0x22, 0x33, 0x44, 0x55, 0x66, 0x77])) 32 0x80028060 (fun t =>
    t.reg 2 == 0x00001FFD && t.lcr == 0x00112233 && t.pc == 0x1004) = true := by decide

/-- V150: `lcw r4, [r2]+` (R332). -/
theorem test_V150_lcw : gives ({ ((start [(2, 0x1ffd)]).write 0x1FF8 [0x00, 0x11, 0x22, 0x33, 0x44, 0x55, 0x66, 0x77]) with lcr := 0x00112233 }) 32 0x80828062 (fun t =>
    t.reg 2 == 0x00002001 && t.reg 4 == 0x11223344 && t.lcr == 0x44556677 && t.pc == 0x1004) = true := by decide

/-- V151: `lce r4, [r2]+` (R333). -/
theorem test_V151_lce : gives ({ ((start [(2, 0x1ffd)]).write 0x1FF8 [0x00, 0x11, 0x22, 0x33, 0x44, 0x55, 0x66, 0x77]) with lcr := 0x00112233 }) 32 0x80828066 (fun t =>
    t.reg 2 == 0x00002001 && t.reg 4 == 0x11223344 && t.lcr == 0x44556677 && t.pc == 0x1004) = true := by decide

/-- V154: `scb r4, [r2]+` (R334). -/
theorem test_V154_scb : gives (start [(2, 0x3001), (4, 0xaabbccdd)]) 32 0x80828068 (fun t =>
    t.reg 2 == 0x00003005 && t.scr == 0xDDAABBCC && t.pc == 0x1004 && t.byte 0x3001 == 0xAA && t.byte 0x3002 == 0xBB && t.byte 0x3003 == 0xCC) = true := by decide

/-- V155: `scw r4, [r2]+` (R335). -/
theorem test_V155_scw : gives ({ start [(2, 0x3005), (4, 0x11223344)] with scr := 0xDDAABBCC }) 32 0x8082806A (fun t =>
    t.reg 2 == 0x00003009 && t.scr == 0x44112233 && t.pc == 0x1004 && t.byte 0x3004 == 0xDD && t.byte 0x3005 == 0x11 && t.byte 0x3006 == 0x22 && t.byte 0x3007 == 0x33) = true := by decide

/-- V156: `sce [r2]+` (R336). -/
theorem test_V156_sce : gives ({ start [(2, 0x3009)] with scr := 0x44112233 }) 32 0x8002806E (fun t =>
    t.reg 2 == 0x0000300D && t.pc == 0x1004 && t.byte 0x3008 == 0x44) = true := by decide

/-- V159: `cache 0x1A, [r0, 0]` (R343). -/
theorem test_V159_cache : gives (start [(0, 0x8000)]) 32 0xE3408000 (fun t =>
    t.pc == 0x1004) = true := by decide

/-- V161: `pflush` (R346). -/
theorem test_V161_pflush : gives (start []) 32 0x8000800A (fun t =>
    t.pc == 0x1004) = true := by decide

/-- V162: `mul r2, r3` (R361). -/
theorem test_V162_mul : gives (start [(2, 0xfffffffe), (3, 0x3)]) 32 0x80028C40 (fun t =>
    t.ceh == 0xFFFFFFFF && t.cel == 0xFFFFFFFA && t.pc == 0x1004) = true := by decide

/-- V164: `mulu r2, r3` (R362). -/
theorem test_V164_mulu : gives (start [(2, 0xffffffff), (3, 0xffffffff)]) 32 0x80028C42 (fun t =>
    t.ceh == 0xFFFFFFFE && t.cel == 0x00000001 && t.pc == 0x1004) = true := by decide

/-- V166: `div r2, r3` (R363). -/
theorem test_V166_div : gives (start [(2, 0x7), (3, 0xfffffffe)]) 32 0x80028C44 (fun t =>
    t.ceh == 0x00000001 && t.cel == 0xFFFFFFFD && t.pc == 0x1004) = true := by decide

/-- V169: `divu r2, r3` (R364). -/
theorem test_V169_divu : gives (start [(2, 0xfffffff9), (3, 0x2)]) 32 0x80028C46 (fun t =>
    t.ceh == 0x00000001 && t.cel == 0x7FFFFFFC && t.pc == 0x1004) = true := by decide

/-- V174: `mfcel r4` (R371). -/
theorem test_V174_mfcel : gives ({ start [] with ceh := 0x11111111, cel := 0x22222222 }) 32 0x80808448 (fun t =>
    t.reg 4 == 0x22222222 && t.pc == 0x1004) = true := by decide

/-- V175: `mfceh r4` (R373). -/
theorem test_V175_mfceh : gives ({ start [] with ceh := 0x11111111, cel := 0x22222222 }) 32 0x80808848 (fun t =>
    t.reg 4 == 0x11111111 && t.pc == 0x1004) = true := by decide

/-- V176: `mfcehl r4, r2` (R374). -/
theorem test_V176_mfcehl : gives ({ start [] with ceh := 0x11111111, cel := 0x22222222 }) 32 0x80828C48 (fun t =>
    t.reg 2 == 0x22222222 && t.reg 4 == 0x11111111 && t.pc == 0x1004) = true := by decide

/-- V179: `mtcel r4` (R376). -/
theorem test_V179_mtcel : gives ({ start [(4, 0xdeadbeef)] with ceh := 0x00000001, cel := 0x00000002 }) 32 0x8080844A (fun t =>
    t.cel == 0xDEADBEEF && t.pc == 0x1004) = true := by decide

/-- V180: `mtceh r4` (R377). -/
theorem test_V180_mtceh : gives ({ start [(4, 0xdeadbeef)] with ceh := 0x00000001, cel := 0x00000002 }) 32 0x8080884A (fun t =>
    t.ceh == 0xDEADBEEF && t.pc == 0x1004) = true := by decide

/-- V181: `mtcehl r4, r2` (R378). -/
theorem test_V181_mtcehl : gives ({ start [(4, 0xaaaa0000), (2, 0xbbbb)] with ceh := 0x00000001, cel := 0x00000002 }) 32 0x80828C4A (fun t =>
    t.ceh == 0xAAAA0000 && t.cel == 0x0000BBBB && t.pc == 0x1004) = true := by decide

/-- V182: `mfsr r4, sr2` (R380). -/
theorem test_V182_mfsr : gives ({ start [] with scr := 0x12345678 }) 32 0x80808850 (fun t =>
    t.reg 4 == 0x12345678 && t.pc == 0x1004) = true := by decide

/-- V183: `mtsr r5, sr0` (R381). -/
theorem test_V183_mtsr : gives (start [(5, 0xa)]) 32 0x80058052 (fun t =>
    t.cnt == 0x0000000A && t.pc == 0x1004) = true := by decide

/-- V188: `mtcr r4, cr3` (R383). -/
theorem test_V188_mtcr : gives (start [(4, 0x9f000000)]) 32 0x98838000 (fun t =>
    t.pc == 0x1004) = true := by decide

/-- V194: `trapeq 0x0E` (R405). -/
theorem test_V194_trapeq : gives (start []) 32 0x800E9004 (fun t =>
    t.pc == 0x1004) = true := by decide

/-- V203: `nop` (R410). -/
theorem test_V203_nop : gives (start []) 32 0x80008000 (fun t =>
    t.pc == 0x1004) = true := by decide

/-- V207: `add! r4, r2` (R425). -/
theorem test_V207_add_short : gives (start [(4, 0xffffffff), (2, 0x2)]) 16 0x2420 (fun t =>
    t.reg 4 == 0x00000001 && t.flags.t == false && t.pc == 0x1002) = true := by decide

/-- V215: `cmp! r6, r2` (R431). -/
theorem test_V215_cmp_short : gives (start [(6, 0x5), (2, 0x5)] 0b00001) 16 0x2623 (fun t =>
    nzcvt t.flags == 0b01101 && t.pc == 0x1002) = true := by decide

/-- V217: `and! r14, r2` (R435). -/
theorem test_V217_and_short : gives (start [(14, 0xff00ff00), (2, 0xff00ff0)]) 16 0x2E24 (fun t =>
    t.reg 14 == 0x0F000F00 && t.flags.c == false && t.flags.v == false && t.flags.t == false && t.pc == 0x1002) = true := by decide

/-- V222: `bittst! r7, 0xE` (R439). -/
theorem test_V222_bittst_short : gives (start [(7, 0x80000000)]) 16 0x6777 (fun t =>
    nzcvt t.flags == 0b11000 && t.pc == 0x1002) = true := by decide

/-- V223: `sll! r4, r2` (R440). -/
theorem test_V223_sll_short : gives (start [(4, 0x80000001), (2, 0x24)]) 16 0x0428 (fun t =>
    t.reg 4 == 0x00000010 && t.flags.v == false && t.flags.t == false && t.pc == 0x1002) = true := by decide

/-- V227: `sra! r11, r12` (R444). -/
theorem test_V227_sra_short : gives (start [(11, 0x80000000), (12, 0x4)]) 16 0x0BCB (fun t =>
    t.reg 11 == 0xF8000000 && t.flags.v == false && t.flags.t == false && t.pc == 0x1002) = true := by decide

/-- V228: `mv! r15, r6` (R448). -/
theorem test_V228_mv_short : gives (start [(6, 0x1234)]) 16 0x0F63 (fun t =>
    t.reg 15 == 0x00001234 && t.pc == 0x1002) = true := by decide

/-- V229: `mlfh! r4, r28` (R449). -/
theorem test_V229_mlfh_short : gives (start [(28, 0xcafe)]) 16 0x04C1 (fun t =>
    t.reg 4 == 0x0000CAFE && t.pc == 0x1002) = true := by decide

/-- V230: `mhfl! r30, r12` (R450). -/
theorem test_V230_mhfl_short : gives (start [(12, 0xbeef)]) 16 0x0EC2 (fun t =>
    t.reg 30 == 0x0000BEEF && t.pc == 0x1002) = true := by decide

/-- V231: `ldiu! r4, 0xFF` (R451). -/
theorem test_V231_ldiu_short : gives (start [(4, 0xffffffff)]) 16 0x54FF (fun t =>
    t.reg 4 == 0x000000FF && t.pc == 0x1002) = true := by decide

/-- V232: `beq! 0x1008` (R455). -/
theorem test_V232_beq_short : gives (start [] 0b01000) 16 0x4404 (fun t =>
    nzcvt t.flags == 0b01000 && t.pc == 0x1008) = true := by decide

/-- V238: `brcc! r12` (R456). -/
theorem test_V238_brcc_short : gives (start [(12, 0x2000)] 0b00100) 16 0x01C4 (fun t =>
    nzcvt t.flags == 0b00100 && t.pc == 0x1002) = true := by decide

/-- V240: `j! 0x100` (R457). -/
theorem test_V240_j_short : gives ({ start [] with pc := 0x12344 }) 16 0x3100 (fun t =>
    t.pc == 0x12100) = true := by decide

/-- V241: `jl! 0x100` (R458). -/
theorem test_V241_jl_short : gives ({ start [] with pc := 0x12344 }) 16 0x3101 (fun t =>
    t.reg 3 == 0x00012346 && t.pc == 0x12100) = true := by decide

/-- V242: `lw! r6, [r2]` (R460). -/
theorem test_V242_lw_short : gives (((start [(2, 0x2000)]).write 0x2000 [0x81, 0x02, 0x03, 0x04, 0xF0, 0xE0, 0xD0, 0xC0])) 16 0x2628 (fun t =>
    t.reg 6 == 0x81020304 && t.pc == 0x1002) = true := by decide

/-- V243: `lh! r13, [r5]` (R461). -/
theorem test_V243_lh_short : gives (((start [(5, 0x2000)]).write 0x2000 [0x81, 0x02, 0x03, 0x04, 0xF0, 0xE0, 0xD0, 0xC0])) 16 0x2D59 (fun t =>
    t.reg 13 == 0xFFFF8102 && t.pc == 0x1002) = true := by decide

/-- V244: `lbu! r4, [r13]` (R462). -/
theorem test_V244_lbu_short : gives (((start [(13, 0x2004)]).write 0x2000 [0x81, 0x02, 0x03, 0x04, 0xF0, 0xE0, 0xD0, 0xC0])) 16 0x24DB (fun t =>
    t.reg 4 == 0x000000F0 && t.pc == 0x1002) = true := by decide

/-- V246: `sw! r4, [r2]` (R463). -/
theorem test_V246_sw_short : gives (start [(2, 0x3000), (4, 0xaabbccdd)]) 16 0x242C (fun t =>
    t.pc == 0x1002 && t.byte 0x3000 == 0xAA && t.byte 0x3001 == 0xBB && t.byte 0x3002 == 0xCC && t.byte 0x3003 == 0xDD) = true := by decide

/-- V248: `sb! r4, [r2]` (R465). -/
theorem test_V248_sb_short : gives (start [(2, 0x3003), (4, 0xaabbccdd)]) 16 0x242F (fun t =>
    t.pc == 0x1002 && t.byte 0x3003 == 0xDD) = true := by decide

/-- V249: `pop! r18, [r2]` (R466). -/
theorem test_V249_pop_short : gives (((start [(2, 0x2000)]).write 0x2000 [0x81, 0x02, 0x03, 0x04, 0xF0, 0xE0, 0xD0, 0xC0])) 16 0x22AA (fun t =>
    t.reg 2 == 0x00002004 && t.reg 18 == 0x81020304 && t.pc == 0x1002) = true := by decide

/-- V252: `push! r16, [r2]` (R467). -/
theorem test_V252_push_short : gives (start [(2, 0x3008), (16, 0x11223344)]) 16 0x20AE (fun t =>
    t.reg 2 == 0x00003004 && t.pc == 0x1002 && t.byte 0x3004 == 0x11 && t.byte 0x3005 == 0x22 && t.byte 0x3006 == 0x33 && t.byte 0x3007 == 0x44) = true := by decide

/-- V255: `lwp! r7, 0x10` (R470). -/
theorem test_V255_lwp_short : gives (((start [(2, 0x1ff0)]).write 0x2000 [0x81, 0x02, 0x03, 0x04, 0xF0, 0xE0, 0xD0, 0xC0])) 16 0x7720 (fun t =>
    t.reg 7 == 0x81020304 && t.pc == 0x1002) = true := by decide

/-- V258: `swp! r8, 0x10` (R473). -/
theorem test_V258_swp_short : gives (start [(2, 0x3000), (8, 0xaabbccdd)]) 16 0x7824 (fun t =>
    t.pc == 0x1002 && t.byte 0x3010 == 0xAA && t.byte 0x3011 == 0xBB && t.byte 0x3012 == 0xCC && t.byte 0x3013 == 0xDD) = true := by decide

/-- V260: `sbp! r4, 0xE` (R475). -/
theorem test_V260_sbp_short : gives (start [(2, 0x3000), (4, 0xaabbccdd)]) 16 0x7477 (fun t =>
    t.pc == 0x1002 && t.byte 0x300e == 0xDD) = true := by decide

/-- V263: `nop!` (R481). -/
theorem test_V263_nop_short : gives (start []) 16 0x0000 (fun t =>
    t.pc == 0x1002) = true := by decide

/-- V264: `tcc!` (R483). -/
theorem test_V264_tcc_short : gives (start []) 16 0x0105 (fun t =>
    nzcvt t.flags == 0b00001 && t.pc == 0x1002) = true := by decide

/-- V268: `mul.f r2, r3` (R545). -/
theorem test_V268_mul_f : gives (start [(2, 0x40000000), (3, 0x40000000)]) 32 0x80028C41 (fun t =>
    t.ceh == 0x20000000 && t.cel == 0x00000000 && t.pc == 0x1004) = true := by decide

/-- V270: `mad r2, r3` (R546). -/
theorem test_V270_mad : gives ({ start [(2, 0x1), (3, 0x1)] with ceh := 0x00000000, cel := 0xFFFFFFFF }) 32 0xF0028C00 (fun t =>
    t.ceh == 0x00000001 && t.cel == 0x00000000 && t.pc == 0x1004) = true := by decide

/-- V272: `madu r2, r3` (R547). -/
theorem test_V272_madu : gives ({ start [(2, 0xffffffff), (3, 0x2)] with ceh := 0x00000000, cel := 0x00000001 }) 32 0xF0028C20 (fun t =>
    t.ceh == 0x00000001 && t.cel == 0xFFFFFFFF && t.pc == 0x1004) = true := by decide

/-- V273: `mad.f r2, r3` (R548). -/
theorem test_V273_mad_f : gives ({ start [(2, 0x40000000), (3, 0x40000000)] with ceh := 0x10000000, cel := 0x00000000 }) 32 0xF0028C80 (fun t =>
    t.ceh == 0x30000000 && t.pc == 0x1004) = true := by decide

/-- V274: `msb r2, r3` (R549). -/
theorem test_V274_msb : gives ({ start [(2, 0x2), (3, 0x3)] with ceh := 0x00000000, cel := 0x00000000 }) 32 0xF0028C01 (fun t =>
    t.ceh == 0xFFFFFFFF && t.cel == 0xFFFFFFFA && t.pc == 0x1004) = true := by decide

/-- V275: `msbu r2, r3` (R550). -/
theorem test_V275_msbu : gives ({ start [(2, 0xffffffff), (3, 0x1)] with ceh := 0x00000001, cel := 0x00000000 }) 32 0xF0028C21 (fun t =>
    t.ceh == 0x00000000 && t.cel == 0x00000001 && t.pc == 0x1004) = true := by decide

/-- V276: `msb.f r2, r3` (R551). -/
theorem test_V276_msb_f : gives ({ start [(2, 0x40000000), (3, 0x40000000)] with ceh := 0x20000000, cel := 0x00000000 }) 32 0xF0028C81 (fun t =>
    t.ceh == 0x00000000 && t.pc == 0x1004) = true := by decide

/-- V277: `mazl r2, r3` (R555). -/
theorem test_V277_mazl : gives ({ start [(2, 0x1fffe), (3, 0x3)] with ceh := 0x00000007, cel := 0x00000009 }) 32 0xF0028D02 (fun t =>
    t.cel == 0xFFFFFFFA && t.pc == 0x1004) = true := by decide

/-- V280: `madl r2, r3` (R557). -/
theorem test_V280_madl : gives ({ start [(2, 0x3), (3, 0x4)] with cel := 0x0000000A }) 32 0xF0028C02 (fun t =>
    t.cel == 0x00000016 && t.pc == 0x1004) = true := by decide

/-- V282: `madl.fs r2, r3` (R558). -/
theorem test_V282_madl_fs : gives ({ start [(2, 0x4000), (3, 0x4000)] with cel := 0x7FFFFFFF }) 32 0xF0028CC2 (fun t =>
    t.pc == 0x1004) = true := by decide

/-- V285: `mszl r2, r3` (R559). -/
theorem test_V285_mszl : gives ({ start [(2, 0x2), (3, 0x3)] with cel := 0x00000009 }) 32 0xF0028D04 (fun t =>
    t.cel == 0xFFFFFFFA && t.pc == 0x1004) = true := by decide

/-- V287: `msbl r2, r3` (R561). -/
theorem test_V287_msbl : gives ({ start [(2, 0x3), (3, 0x4)] with cel := 0x0000000A }) 32 0xF0028C04 (fun t =>
    t.cel == 0xFFFFFFFE && t.pc == 0x1004) = true := by decide

/-- V290: `mazh r2, r3` (R565). -/
theorem test_V290_mazh : gives ({ start [(2, 0x30000), (3, 0xfffe0000)] with ceh := 0x00000007, cel := 0x00000009 }) 32 0xF0028F03 (fun t =>
    t.ceh == 0xFFFFFFFA && t.pc == 0x1004) = true := by decide

/-- V298: `min r4, r3, r2` (R573). -/
theorem test_V298_min : gives (start [(3, 0xffffffff), (2, 0x1)]) 32 0xF0838806 (fun t =>
    t.reg 4 == 0xFFFFFFFF && t.pc == 0x1004) = true := by decide

/-- V299: `max r4, r3, r2` (R574). -/
theorem test_V299_max : gives (start [(3, 0xffffffff), (2, 0x1)]) 32 0xF0838807 (fun t =>
    t.reg 4 == 0x00000001 && t.pc == 0x1004) = true := by decide

/-- V300: `add.s r4, r3, r2` (R575). -/
theorem test_V300_add_s : gives (start [(3, 0x7fffffff), (2, 0x1)]) 32 0xF0838848 (fun t =>
    t.reg 4 == 0x7FFFFFFF && t.pc == 0x1004) = true := by decide

/-- V303: `sub.s r4, r2, r3` (R576). -/
theorem test_V303_sub_s : gives (start [(2, 0x80000000), (3, 0x1)]) 32 0xF0828C49 (fun t =>
    t.reg 4 == 0x80000000 && t.pc == 0x1004) = true := by decide

/-- V305: `abs r4, r3` (R577). -/
theorem test_V305_abs : gives (start [(3, 0xfffffffb)]) 32 0xF083800A (fun t =>
    t.reg 4 == 0x00000005 && t.pc == 0x1004) = true := by decide

/-- V307: `abs.s r4, r3` (R578). -/
theorem test_V307_abs_s : gives (start [(3, 0x80000000)]) 32 0xF083804B (fun t =>
    t.reg 4 == 0x7FFFFFFF && t.pc == 0x1004) = true := by decide

/-- V311: `clz r4, r2` (R579). -/
theorem test_V311_clz : gives (start [(2, 0x10000)]) 32 0xF082800D (fun t =>
    t.reg 4 == 0x0000000F && t.pc == 0x1004) = true := by decide

/-- V314: `sll.s r4, r2, r3` (R580). -/
theorem test_V314_sll_s : gives (start [(2, 0x10000), (3, 0x4)]) 32 0xF0828C4E (fun t =>
    t.reg 4 == 0x00100000 && t.pc == 0x1004) = true := by decide

/-- V318: `mtcel! r4` (R581). -/
theorem test_V318_mtcel_short : gives ({ start [(4, 0x1234)] with ceh := 0x00000001, cel := 0x00000002 }) 16 0x1040 (fun t =>
    t.cel == 0x00001234 && t.pc == 0x1002) = true := by decide

/-- V319: `mtceh! r4` (R582). -/
theorem test_V319_mtceh_short : gives ({ start [(4, 0x1234)] with ceh := 0x00000001, cel := 0x00000002 }) 16 0x1140 (fun t =>
    t.ceh == 0x00001234 && t.pc == 0x1002) = true := by decide

/-- V320: `mfcel! r2` (R583). -/
theorem test_V320_mfcel_short : gives ({ start [] with ceh := 0x00000001, cel := 0x00000002 }) 16 0x1021 (fun t =>
    t.reg 2 == 0x00000002 && t.pc == 0x1002) = true := by decide

/-- V321: `mfceh! r2` (R584). -/
theorem test_V321_mfceh_short : gives ({ start [] with ceh := 0x00000001, cel := 0x00000002 }) 16 0x1121 (fun t =>
    t.reg 2 == 0x00000001 && t.pc == 0x1002) = true := by decide

/-- V322: `mul.f! r2, r3` (R585). -/
theorem test_V322_mul_f_short : gives (start [(2, 0x40000000), (3, 0x40000000)]) 16 0x1232 (fun t =>
    t.ceh == 0x20000000 && t.cel == 0x00000000 && t.pc == 0x1002) = true := by decide

/-- V324: `mad.f! r2, r3` (R587). -/
theorem test_V324_mad_f_short : gives ({ start [(2, 0x40000000), (3, 0x40000000)] with ceh := 0x00000000, cel := 0x00000001 }) 16 0x1234 (fun t =>
    t.ceh == 0x20000000 && t.pc == 0x1002) = true := by decide

/-- V326: `msb.f! r2, r3` (R589). -/
theorem test_V326_msb_f_short : gives ({ start [(2, 0x40000000), (3, 0x40000000)] with ceh := 0x00000000, cel := 0x00000000 }) 16 0x1236 (fun t =>
    t.ceh == 0xE0000000 && t.pc == 0x1002) = true := by decide

/-- V328: `mazl.f! r2, r3` (R591). -/
theorem test_V328_mazl_f_short : gives ({ start [(2, 0x4000), (3, 0x4000)] with cel := 0x00000009 }) 16 0x1238 (fun t =>
    t.cel == 0x20000000 && t.pc == 0x1002) = true := by decide

/-- V330: `madl.fs! r2, r3` (R593). -/
theorem test_V330_madl_fs_short : gives ({ start [(2, 0x8000), (3, 0x8000)] with cel := 0x00000000 }) 16 0x123A (fun t =>
    t.cel == 0x7FFFFFFF && t.pc == 0x1002) = true := by decide

/-- V332: `mszl.f! r2, r3` (R595). -/
theorem test_V332_mszl_f_short : gives ({ start [(2, 0x4000), (3, 0x4000)] with cel := 0x00000009 }) 16 0x123C (fun t =>
    t.cel == 0xE0000000 && t.pc == 0x1002) = true := by decide

/-- V308: `bitrev r4, r2, r3` (R596). -/
theorem test_V308_bitrev : gives (start [(2, 0x1), (3, 0x0)]) 32 0xF0828C0C (fun t =>
    t.reg 4 == 0x80000000 && t.pc == 0x1004) = true := by decide +kernel

/-! ## The hypotheses of the statements can be met -/

/-- A platform: what MemMap answers for the addresses `lo` to `hi`, in Kernel mode. -/
def mapped (lo hi : Word) (k : AccessKind) (v : Verdict) (s : State) : State :=
  { s with cfg := { s.cfg with memMap := [{ lo := lo, hi := hi, kind := k, mode := .kernel, verdict := v }] } }

/-- The state with other inputs for its first step. -/
def asked (ext : BitVec 16) (nmi dbg : Bool) (s : State) : State :=
  { s with inputs := [{ ext := ext, nmi := nmi, dbg := dbg }] }

/-- User mode, interrupts enabled, no privilege. -/
def user : State := { State.reset with psr := { State.reset.psr with umc := true, iec := true } }

/-- Debug Mode. -/
def inDebug : State := { State.reset with dreg := { State.reset.dreg with dm := true } }

/-- Little endian. -/
def little : State := { State.reset with cfg := { defaultParams with littleEndian := true } }

/-- A coprocessor 1 that is there, and usable or not. -/
def withCop (cu : Bool) : State :=
  { start [(4, 0x2000), (5, 0x2001)] with
    cfg := { defaultParams with hasCop1 := true }, psr := { State.reset.psr with cu1 := cu } }

theorem witness_DecodeInvertsEncode :
    (Instr.mfsr 4 2).wellFormed = true ∧ (Instr.cop 3 0xFFFFF).wellFormed = true ∧
      (Instr.add 31 0 31 true).wellFormed = true := by decide

theorem witness_EncodeInvertsDecode :
    decode false 0x8083 0x8810 = .ok (.add 4 3 2 false) ∧ decode true 0x0000 0xFFFF = .ok .nop16 := by decide

theorem witness_StepExecutesDecoded :
    let s := (asked 1 false false State.reset).withFetchWord 32 0x80838810
    s.tick.event s.now = none ∧ s.sleeping = false ∧ s.pc.getLsbD 0 = false ∧ s.memMap s.pc .fetch = .ok ∧
      (s.half s.pc).getLsbD 15 = true ∧ s.memMap (s.pc + 2) .fetch = .ok ∧
      decode s.cfg.littleEndian (s.half s.pc) (s.half (s.pc + 2)) = .ok (.add 4 3 2 false) := by decide +kernel

theorem witness_FetchExceptions_odd :
    let s := { State.reset with pc := 0xFFFFFFFF }
    s.tick.event s.now = none ∧ s.sleeping = false ∧ s.pc.getLsbD 0 = true := by decide +kernel

theorem witness_FetchExceptions_first :
    let a := mapped 0x1000 0x1000 .fetch .addressError State.reset
    let b := mapped 0x1000 0x1000 .fetch .busError State.reset
    a.tick.event a.now = none ∧ a.sleeping = false ∧ a.pc.getLsbD 0 = false ∧
      a.memMap a.pc .fetch = .addressError ∧ b.memMap b.pc .fetch = .busError := by decide +kernel

theorem witness_FetchExceptions_second :
    let s := State.reset.withFetchWord 32 0x80838810
    let a := mapped 0x1002 0xFFFFFFFF .fetch .addressError s
    let b := mapped 0x1002 0xFFFFFFFF .fetch .busError s
    a.memMap a.pc .fetch = .ok ∧ (a.half a.pc).getLsbD 15 = true ∧ a.memMap (a.pc + 2) .fetch = .addressError ∧
      b.memMap b.pc .fetch = .ok ∧ b.memMap (b.pc + 2) .fetch = .busError := by decide +kernel

theorem witness_FetchExceptions_decode :
    let p := State.reset.write 0x1000 [0x80, 0x83, 0x08, 0x10]
    let r := State.reset.write 0x1000 [0x80, 0x00, 0x80, 0x0C]
    p.tick.event p.now = none ∧ (p.half p.pc).getLsbD 15 = true ∧ (p.half (p.pc + 2)).getLsbD 15 = false ∧
      decode r.cfg.littleEndian (r.half r.pc) (r.half (r.pc + 2)) = .error .reserved := by decide +kernel

theorem witness_InterruptsAndSleep :
    (∃ s : State, s.inputs = [] ∧ s.sleeping = true ∧ s.dreg.dm = false) ∧
      (∃ s : State, s.inputs = [⟨0, true, true⟩] ∧ s.dreg.dm = false ∧ s.sleeping = true) ∧
      (∃ s : State, s.inputs = [⟨0xFFFF, true, false⟩] ∧ s.dreg.dm = false) ∧
      (∃ s : State, s.inputs = [⟨0x8001, false, false⟩] ∧ s.dreg.dm = false ∧ s.psr.iec = true ∧ s.ecr.im = 0x8000) ∧
      (∃ s : State, s.inputs = [⟨0x8000, true, true⟩] ∧ s.sleeping = true ∧ s.dreg.dm = true) ∧
      ∃ s : State, s.inputs = [⟨0x8000, false, false⟩] ∧ s.sleeping = true ∧ s.dreg.dm = false ∧ s.psr.iec = true ∧
        ∀ l < 16, ¬((0x8000#16).getLsbD l = true ∧ s.ecr.im.getLsbD l = true) :=
  ⟨⟨{ State.reset with sleeping := true }, rfl, rfl, rfl⟩,
    ⟨{ asked 0 true true State.reset with sleeping := true }, rfl, rfl, rfl⟩,
    ⟨asked 0xFFFF true false State.reset, rfl, rfl⟩,
    ⟨{ asked 0x8001 false false user with ecr := { State.reset.ecr with im := 0x8000 } }, rfl, rfl, rfl, rfl⟩,
    ⟨{ asked 0x8000 true true inDebug with sleeping := true }, rfl, rfl, rfl⟩,
    ⟨{ asked 0x8000 false false user with sleeping := true, ecr := { State.reset.ecr with im := 0x7FFF } },
      rfl, rfl, rfl, rfl, by decide⟩⟩

/-- Outside and inside Debug Mode; with both probe signals, and with one of them, where the vector has cr3's upper half. -/
theorem witness_DebugEntryAndReturn :
    let probe (sj : Bool) : State :=
      { State.reset with cfg := { defaultParams with iceEnable := true, sjProbeEn := sj }, excpVec := 0x8000FFFF }
    State.reset.dreg.dm = false ∧ inDebug.dreg.dm = true ∧ (probe true).debugVector = 0xFF000000 ∧
      (probe false).cfg.iceEnable = true ∧ (probe false).cfg.sjProbeEn = false ∧
      (probe false).debugVector = 0x800001FC := by decide

theorem witness_ControlInstructionsNeedPrivilege :
    user.psr.umc = true ∧ user.dreg.dm = false ∧ user.psr.cra = false ∧ State.reset.privileged = true := by decide

/-- User mode: an instruction that completes, one that raises CCU, and a debug interrupt. -/
theorem witness_UserModeConfined :
    user.psr.umc = true ∧ user.psr.cra = false ∧ user.dreg.dm = false ∧
      gives user 32 0x80838810 (fun t => t.mode == .user) = true ∧
      gives user 32 0x98828001 (fun t => t.mode == .kernel) = true ∧
      gives (asked 0 false true user) 32 0x80838810 (fun t => t.mode == .debug) = true := by decide +kernel

/-- A store that lists a byte, from a memory in its canonical form. -/
theorem witness_StepKeepsMemoryForm :
    let s := (start [(4, 7), (2, 0x2000)]).withFetchWord 32 0xD0828000
    Memory.wf s.mem = true ∧ gives s 32 0xD0828000 (fun t => t.byte 0x2003 == 7) = true := by decide +kernel

theorem witness_StepKeepsLaunch : State.reset.remaindersClear = true ∧ ∃ t, step State.reset = .next t :=
  ⟨by decide, _, rfl⟩

theorem witness_ByteOrder :
    State.reset.cfg.littleEndian = false ∧ little.cfg.littleEndian = true ∧ Memory.wf State.reset.mem = true := by
  decide

theorem witness_StoreThenLoad :
    Memory.wf (State.reset.write 0xFFFFFFFE [1, 2, 3]).mem = true ∧ (0x2003 : Word) ≠ 0x1FFF + BitVec.ofNat 32 3 := by
  decide

theorem witness_ControlRegisterReadBack :
    31#5 ∈ [0#5, 1#5, 3#5, 4#5, 5#5, 6#5, 15#5, 16#5, 29#5, 30#5, 31#5] ∧
      State.reset.cfg.excCodeWritable = true := by decide

theorem witness_Branches : Cond.vc ≠ .cnz ∧ Cond.al ≠ .cnz := by decide

theorem witness_ConditionalMoveAndTest :
    Cond.al ≠ .cnz ∧ State.reset.holds .al = true ∧ State.reset.holds .eq = false := by decide

/-- The last word, half-word and byte of the address space, by an offset at the end of its range. -/
theorem witness_Loads :
    let s := start [(3, 0xFFFFC000), (2, 0xFFFFFF80)]
    let ea (imm : BitVec 15) : Word := s.reg 3 + BitVec.ofInt 32 imm.toInt
    (ea 0x3FFC).toNat % 4 = 0 ∧ (ea 0x3FFE).toNat % 2 = 0 ∧ (ea 0x3FFF).toNat % 1 = 0 ∧
      s.memMap (ea 0x3FFC) .load = .ok ∧ s.memMap (ea 0x3FFF) .load = .ok ∧
      (s.reg 2 + BitVec.ofNat 32 (4 * 31)).toNat % 4 = 0 := by decide

theorem witness_IndexedLoads :
    let s := start [(3, 0xFFFFFFFC)]
    (s.reg 3).toNat % 4 = 0 ∧ s.memMap (s.reg 3) .load = .ok ∧ (s.reg 3 + BitVec.ofInt 32 (-2048)).toNat % 4 = 0 ∧
      (4 : Reg) ≠ 3 := by decide

theorem witness_Stores :
    let s := start [(3, 0xFFFFC000), (2, 0xFFFFFF80)]
    let ea (imm : BitVec 15) : Word := s.reg 3 + BitVec.ofInt 32 imm.toInt
    Memory.wf s.mem = true ∧ (ea 0x3FFC).toNat % Width.word.bytes = 0 ∧ (ea 0x3FFE).toNat % Width.half.bytes = 0 ∧
      (ea 0x3FFF).toNat % Width.byte.bytes = 0 ∧ s.memMap (ea 0x3FFC) .store = .ok := by decide

theorem witness_IndexedStores :
    let s := start [(5, 4)]
    Memory.wf s.mem = true ∧ (s.reg 5 - 4).toNat % Width.word.bytes = 0 ∧ s.memMap (s.reg 5 - 4) .store = .ok ∧
      s.memMap (s.reg 5) .store = .ok := by decide

/-- Misaligned by 1 and by 3; aligned and refused by MemMap, in either way. -/
theorem witness_LoadExceptions :
    let s := start [(3, 0x2001), (6, 0x2003), (7, 0x3000)]
    let a := mapped 0x3000 0x3000 .load .addressError s
    let b := mapped 0x3000 0x3000 .load .busError s
    (s.reg 3).toNat % 2 ≠ 0 ∧ (s.reg 6).toNat % 4 ≠ 0 ∧ (a.reg 7).toNat % 4 = 0 ∧
      a.memMap (a.reg 7) .load = .addressError ∧ b.memMap (b.reg 7) .load = .busError := by decide

/-- Two regions that overlap and one for another mode: the first that fits answers, and where none fits the answer is ok. -/
theorem witness_LoadExceptions_memMap :
    let rs : List MapRule := [⟨0x3000, 0x3000, .load, .user, .busError⟩, ⟨0x2000, 0x3000, .load, .kernel, .addressError⟩,
      ⟨0x3000, 0xFFFFFFFF, .load, .kernel, .busError⟩]
    let s := { State.reset with cfg := { defaultParams with memMap := rs } }
    s.memMap 0x3000 .load = .addressError ∧ s.memMap 0x3001 .load = .busError ∧ s.memMap 0x1FFF .load = .ok ∧
      s.memMap 0x3000 .store = .ok ∧
      { s with psr := { s.psr with umc := true } }.memMap 0x3000 .load = .busError ∧
      { s with psr := { s.psr with umc := true }, dreg := { s.dreg with dm := true } }.memMap 0x3000 .load = .ok := by
  decide

theorem witness_StoreExceptions :
    let s := start [(3, 0x2001), (6, 0x2003), (7, 0x3000)]
    let a := mapped 0x3000 0x3000 .store .addressError s
    let b := mapped 0x3000 0x3000 .store .busError s
    (s.reg 3).toNat % 2 ≠ 0 ∧ (s.reg 6).toNat % 4 ≠ 0 ∧ (a.reg 7).toNat % 4 = 0 ∧
      a.memMap (a.reg 7) .store = .addressError ∧ b.memMap (b.reg 7) .store = .busError := by decide

/-- Big endian, at an aligned address and at the two ends of the misalignments. -/
theorem witness_CombineLoads :
    let s := start [(2, 0x2000), (3, 0x2001), (6, 0x2003)]
    s.cfg.littleEndian = false ∧ s.memMap 0x2000 .load = .ok ∧ (s.reg 2).toNat % 4 = 0 ∧
      (s.reg 3).toNat % 4 = 1 ∧ (s.reg 6).toNat % 4 = 3 ∧ (4 : Reg) ≠ 2 := by decide

theorem witness_CombineStores :
    let s := start [(2, 0x2000), (3, 0x2001), (6, 0x2003)]
    s.cfg.littleEndian = false ∧ Memory.wf s.mem = true ∧ s.memMap (s.reg 3) .store = .ok ∧
      s.memMap 0x2000 .store = .ok ∧ (s.reg 2).toNat % 4 = 0 ∧ (s.reg 6).toNat % 4 = 3 := by decide

theorem witness_UnalignedLoad :
    let s := start [(2, 0x2003)]
    s.cfg.littleEndian = false ∧ (4 : Reg) ≠ 2 ∧
      s.memMap (s.reg 2 - BitVec.ofNat 32 ((s.reg 2).toNat % 4)) .load = .ok ∧
      s.memMap (s.reg 2 - BitVec.ofNat 32 ((s.reg 2).toNat % 4) + 4) .load = .ok := by decide

theorem witness_UnalignedStore :
    let s := start [(2, 0x2003)]
    s.cfg.littleEndian = false ∧ Memory.wf s.mem = true ∧ s.memMap (s.reg 2) .store = .ok ∧
      s.memMap (s.reg 2 - BitVec.ofNat 32 ((s.reg 2).toNat % 4) + 4) .store = .ok := by decide

/-- At an aligned address the word after it may be forbidden. -/
theorem witness_Unaligned_aligned :
    let s := { start [(2, 0x2000)] with cfg := { defaultParams with
      memMap := [⟨0x2004, 0x2007, .load, .kernel, .busError⟩, ⟨0x2004, 0x2007, .store, .kernel, .busError⟩] } }
    s.cfg.littleEndian = false ∧ Memory.wf s.mem = true ∧ (s.reg 2).toNat % 4 = 0 ∧ s.memMap 0x2000 .load = .ok ∧
      s.memMap 0x2000 .store = .ok ∧ s.memMap 0x2004 .load = .busError ∧ s.memMap 0x2004 .store = .busError := by decide

theorem witness_CombineRefusedInLittleEndian : little.cfg.littleEndian = true ∧
    Instr.sce 2 ∈ [Instr.lcb 2, .lcw 4 2, .lce 4 2, .scb 4 2, .scw 4 2, .sce 2] := by decide

theorem witness_CombineAndCoprocessorExceptions :
    let s := { withCop true with cfg := { (withCop true).cfg with memMap := [⟨0x2000, 0x2001, .load, .kernel, .busError⟩,
      ⟨0x2000, 0x2000, .store, .kernel, .addressError⟩, ⟨0x2001, 0x2001, .store, .kernel, .busError⟩] } }
    s.cfg.littleEndian = false ∧ s.memMap 0x2000 .load = .busError ∧ s.memMap 0x2000 .store = .addressError ∧
      s.memMap (s.reg 5) .store = .busError ∧ (s.reg 5).toNat % 4 ≠ 0 ∧ s.copUsable 1 = true ∧
      s.copPresent 1 = true ∧ (s.reg 4).toNat % 4 = 0 := by decide

/-- A usable coprocessor in little endian, at an aligned address that MemMap forbids. -/
theorem witness_CombineAndCoprocessorExceptions_little :
    let s := { withCop true with cfg := { (withCop true).cfg with
      littleEndian := true, memMap := [⟨0x2000, 0x2000, .load, .kernel, .busError⟩] } }
    s.cfg.littleEndian = true ∧ s.copUsable 1 = true ∧ s.copPresent 1 = true ∧ (s.reg 4).toNat % 4 = 0 ∧
      s.memMap (s.reg 4) .load = .busError := by decide

/-- An undefined operation; one that reads where the bus answers with an error; one that does not read. -/
theorem witness_CacheAndNops :
    let s := mapped 0x2000 0x2000 .load .busError (start [(2, 0x2000)])
    (0x1C#5).toNat ∈ [0x05, 0x06, 0x07, 0x0F, 0x12, 0x13, 0x14, 0x15, 0x16, 0x17, 0x19, 0x1C] ∧
      (0x0B#5).toNat ∈ [0x00, 0x01, 0x03, 0x08, 0x09, 0x0B] ∧ s.memMap (s.reg 2) .load = .busError ∧
      (0x1F#5).toNat ∉ [0x05, 0x06, 0x07, 0x0F, 0x12, 0x13, 0x14, 0x15, 0x16, 0x17, 0x19, 0x1C] := by decide

theorem witness_Divisions :
    let s := start [(2, 0x80000000), (3, 0xFFFFFFFF), (6, 1)]
    (s.reg 2).toInt = -2 ^ 31 ∧ (s.reg 3).toInt = -1 ∧ s.reg 3 ≠ 0 ∧ s.reg 0 = 0 ∧ s.reg 6 ≠ 0 ∧
      (s.reg 6).toInt ≠ -1 := by decide

theorem witness_CustomEngineMoves : (4 : Reg) ≠ 3 := by decide

theorem witness_CustomEngineFunction :
    State.reset.cfg.ceImplemented.getLsbD (31#5).toNat = false ∧
      ({ defaultParams with ceImplemented := 0x80000001 } : Params).ceImplemented.getLsbD (31#5).toNat = true := by
  decide

theorem witness_Coprocessors :
    (1 : BitVec 2) ≠ 0 ∧ (withCop false).psr.cu1 = false ∧ (withCop true).psr.cu1 = true ∧
      (withCop true).cfg.hasCop1 = true ∧ (withCop true).cfg.hasCop2 = false ∧ Memory.wf (withCop true).mem = true ∧
      ((withCop true).reg 4 + BitVec.ofInt 32 (4 * (-512))).toNat % 4 = 0 ∧
      (withCop true).memMap 0x1800 .store = .ok ∧ (withCop true).memMap 0x1800 .load = .ok ∧
      ((withCop true).reg 5).toNat % 4 ≠ 0 := by decide

theorem witness_SystemInstructions :
    State.reset.privileged = true ∧ Cond.al ≠ .cnz ∧ State.reset.holds .al = true ∧ State.reset.holds .cs = false := by
  decide

theorem witness_MoveToControlRegister :
    State.reset.privileged = true ∧ (28#5).toNat ∉ [0, 1, 2, 3, 4, 5, 6, 15, 16, 29, 30, 31] ∧
      (7#5).toNat ∉ [0, 1, 2, 3, 4, 5, 6, 15, 16, 29, 30, 31] := by decide

theorem witness_MoveFromControlRegister :
    State.reset.privileged = true ∧ State.reset.psr.umc = false ∧ user.psr.umc = true ∧
      { user with psr := { user.psr with cra := true } }.privileged = true ∧
      (19#5).toNat ∉ [0, 1, 2, 3, 4, 5, 6, 15, 16, 18, 29, 30, 31] := by decide

/-- Under the layout after reset no two fields share a place, and every remainder is clear. -/
theorem witness_MoveFromControlRegister_places :
    let l := defaultLayout
    [l.psr.umc.val, l.psr.ums.val, l.psr.iec.val, l.psr.ies.val, l.psr.cra.val, l.psr.cu1.val, l.psr.cu2.val,
        l.psr.cu3.val].Nodup ∧
      ([l.current.n.val, l.current.z.val, l.current.c.val, l.current.v.val, l.current.t.val] ++
        [l.saved.n.val, l.saved.z.val, l.saved.c.val, l.saved.v.val, l.saved.t.val]).Nodup ∧
      ((List.range 5).map (l.excCode.val + ·) ++ (List.range 16).map (l.im.val + ·)).Nodup ∧
      [l.dm.val, l.dbp.val, l.brkSt.val].Nodup ∧ State.reset.psr.rest = 0 ∧ State.reset.condRest = 0 ∧
      State.reset.ecr.rest = 0 ∧ State.reset.dreg.rest = 0 := by decide

/-! ## Runs -/

/-- A program of two instructions at the reset address. -/
def twoWords (i j : Instr) : State := State.reset.write 0x1000 (encodeBytes false i ++ encodeBytes false j)

/-- How a run ended, by a number. -/
def ending : RunEnd → Nat
  | .normal _ => 0
  | .asleep _ => 1
  | .fault _ => 2
  | .refused _ => 3
  | .bubbleMissing _ _ => 4
  | .unfinished _ => 5

/-- `mtcr r4, cr1` and then `bcs` refuses for want of one bubble (R751, R765); with `nop` for the branch it ends at HaltPC; with no fuel it is unfinished. -/
theorem test_run_bubble :
    ending (run 0x1008 3 (twoWords (.mtcr 4 1) (.bCond .cs 2))) = 4 ∧
      ending (run 0x1008 3 (twoWords (.mtcr 4 1) .nop)) = 0 ∧ ending (run 0x1008 1 (twoWords .nop .nop)) = 5 := by
  decide +kernel

/-- Asleep with nothing to come: the run ends sleeping, with no fuel left too, and with inputs that are all empty (R765). -/
theorem test_run_asleep :
    let s := { State.reset with sleeping := true }
    ending (run 0x1000 0 s) = 1 ∧ ending (run 0x1000 2 { s with inputs := [⟨0, false, false⟩] }) = 1 ∧
      ending (run 0x1000 0 { s with inputs := [⟨1, false, false⟩] }) = 5 := by decide +kernel

end Sys2Proof.Tests
end

section
/-! PROOFS. The state, the control registers and the condition test (10_state.md). -/

namespace Sys2Proof.Machine

/-! ## What an instruction does to the control registers -/

/-- The launch parameters and everything of the state that belongs to the control registers (R40): what instructions other than the control instructions leave as it is, unless they raise. -/
structure ControlState where
  cfg : Params
  savedFlags : Flags
  condRest : Word
  psr : Psr
  ecr : Ecr
  excpVec : Word
  ccr : Word
  epc : Word
  ema : Word
  limpfn : Word
  ldmpfn : Word
  prev : Word
  dreg : Dreg
  depc : Word
  dsave : Word

/-- The control part of a state. -/
def State.control (s : State) : ControlState where
  cfg := s.cfg
  savedFlags := s.savedFlags
  condRest := s.condRest
  psr := s.psr
  ecr := s.ecr
  excpVec := s.excpVec
  ccr := s.ccr
  epc := s.epc
  ema := s.ema
  limpfn := s.limpfn
  ldmpfn := s.ldmpfn
  prev := s.prev
  dreg := s.dreg
  depc := s.depc
  dsave := s.dsave

/-- `u` is `s` but for registers, memory and the model's bookkeeping: the state in which `s` takes an exception or an event, or runs a control instruction. -/
structure SameControl (s u : State) : Prop where
  control : u.control = s.control
  pc : u.pc = s.pc
  flags : u.flags = s.flags

theorem SameControl.refl (s : State) : SameControl s s := ⟨rfl, rfl, rfl⟩

theorem SameControl.trans {s t u : State} (h : SameControl s t) (h' : SameControl t u) : SameControl s u :=
  ⟨h'.control.trans h.control, h'.pc.trans h.pc, h'.flags.trans h.flags⟩

/-- Everything that can happen to the control registers between `s` and `t`. -/
inductive ControlEffect (s t : State) : Prop
  /-- Nothing. -/
  | kept (control : t.control = s.control)
  /-- An exception or an interrupt is entered (R691). -/
  | entered (u : State) (x : Exc) (addr : Option Word) (same : SameControl s u) (enter : t = u.enter x s.pc addr)
  /-- Debug Mode is entered (R715). -/
  | debugEntered (u : State) (dbp brkSt : Bool) (same : SameControl s u) (outside : s.dreg.dm = false)
      (enter : t = u.debugEnter dbp brkSt)
  /-- `mtcr` (R383). -/
  | written (u : State) (n : BitVec 5) (v : Word) (same : SameControl s u) (allowed : s.privileged = true)
      (write : t = (u.setControlReg n v).advance 4)
  /-- `rte` (R700). -/
  | returned (u : State) (same : SameControl s u) (allowed : s.privileged = true) (ret : t = u.returnFromException)
  /-- `drte` (R716). -/
  | debugReturned (u : State) (same : SameControl s u) (allowed : s.privileged = true) (ret : t = u.returnFromDebug)

namespace ControlEffect

variable {s t u effect : State}

theorem of_raise (x : Exc) : ControlEffect s (s.raise x) := .entered s x none (.refl s) rfl

theorem of_raiseAt (x : Exc) (a : Word) : ControlEffect s (s.raiseAt x a) := .entered s x (some a) (.refl s) rfl

/-- An exception raised after registers have been written. -/
theorem of_raise_after (h : SameControl s u) (x : Exc) : ControlEffect s (u.raise x) :=
  .entered u x none h (by rw [State.raise, h.pc])

/-- A data access with an effect that keeps the control registers. -/
theorem of_accessed {k : AccessKind} {w : Width} {ea : Word} (h : effect.control = s.control) :
    ControlEffect s (s.accessed k w ea effect) := by
  rcases accessed_cases s k w ea effect with ⟨-, e⟩ | ⟨x, -, e⟩ <;> rw [e]
  · exact .kept h
  · exact of_raiseAt x ea

theorem of_coprocessed {n : BitVec 2} (h : ControlEffect s effect) : ControlEffect s (s.coprocessed n effect) := by
  rcases coprocessed_cases s n effect with ⟨-, -, -, e⟩ | ⟨-, e⟩ | ⟨-, -, e⟩ <;> rw [e]
  · exact h
  · exact of_raise .ri
  · exact of_raise .ccu

theorem of_controlled (h : s.privileged = true → ControlEffect s effect) : ControlEffect s (s.controlled effect) := by
  rcases controlled_cases s effect with ⟨hp, e⟩ | ⟨-, e⟩ <;> rw [e]
  · exact h hp
  · exact of_raise .ccu

/-- An outcome whose next state, if any, is one with such an effect. -/
def Meets (s : State) (o : Result) : Prop := ∀ t, o = .next t → ControlEffect s t

theorem meets_next (h : ControlEffect s t) : Meets s (.next t) := by
  rintro _ ⟨⟩
  exact h

theorem meets_combined (h : ControlEffect s effect) : Meets s (s.combined effect) := by
  rcases combined_cases s effect with ⟨-, e⟩ | ⟨-, e⟩ <;> rw [e]
  · exact meets_next h
  · rintro _ ⟨⟩

end ControlEffect

section updates

variable (s : State)

@[simp] theorem setLoadedBase_control (rd ra : Reg) (v base : Word) :
    (s.setLoadedBase rd ra v base).control = s.control := by
  unfold State.setLoadedBase; split <;> rfl

theorem setCop_same (n : BitVec 2) (f : CopFile) : SameControl s (s.setCop n f) := by
  unfold State.setCop; split <;> exact ⟨rfl, rfl, rfl⟩

theorem setUser_same (usd : BitVec 5) (v : Option Word) : SameControl s (s.setUser usd v) := by
  cases v <;> exact ⟨rfl, rfl, rfl⟩

theorem applyCe_same (usd1 usd2 : BitVec 5) (r : CeResult) : SameControl s (s.applyCe usd1 usd2 r) :=
  have h : SameControl s { s with ceh := r.ceh, cel := r.cel } := ⟨rfl, rfl, rfl⟩
  (h.trans (setUser_same _ usd1 r.usd1)).trans (setUser_same _ usd2 r.usd2)

end updates

/-! ## One lemma for each instruction that does more to the control state than keep it -/

namespace ControlEffect

variable (s : State)

/-- Division: by zero it draws the accumulator and raises CeE (R363). -/
theorem divided {b : Word} {t : State} (h : ControlEffect s t) :
    ControlEffect s (if b = 0 then s.dividedByZero else t) := by
  split
  · have hdrawn : SameControl s s.drawAcc := ⟨rfl, rfl, rfl⟩
    exact of_raise_after hdrawn .cee
  · exact h

theorem exec_div (ra rb : Reg) : Meets s (exec (.div ra rb) s) := by
  refine meets_next (divided s ?_)
  split <;> exact .kept rfl

theorem exec_divu (ra rb : Reg) : Meets s (exec (.divu ra rb) s) := meets_next (divided s (.kept rfl))

theorem exec_mvCond (c : Cond) (rd ra : Reg) : Meets s (exec (.mvCond c rd ra) s) := by
  refine meets_next (.kept ?_)
  split <;> rfl

theorem exec_mfsr (rd : Reg) (n : BitVec 5) : Meets s (exec (.mfsr rd n) s) := by
  show Meets s (execMfsr rd n s)
  unfold execMfsr
  split
  · exact meets_next (.kept rfl)
  · exact meets_next (of_raise .ri)

theorem exec_mtsr (ra : Reg) (n : BitVec 5) : Meets s (exec (.mtsr ra n) s) := by
  have he : exec (.mtsr ra n) s = execMtsr ra n s := rfl
  rcases setSpecial_cases s n (s.reg ra) with ⟨-, h⟩ | ⟨-, h⟩ | ⟨-, h⟩ | ⟨-, h⟩ <;>
    simp only [he, execMtsr, h]
  · exact meets_next (.kept rfl)
  · exact meets_next (.kept rfl)
  · exact meets_next (.kept rfl)
  · exact meets_next (of_raise .ri)

theorem exec_ceinst (func5 : BitVec 5) (ra rb : Reg) (usd1 usd2 : BitVec 5) :
    Meets s (exec (.ceinst func5 ra rb usd1 usd2) s) := by
  refine meets_next ?_
  split
  · exact of_raise .ri
  · split
    · exact of_raise_after (applyCe_same s usd1 usd2 _) .cee
    · exact .kept (applyCe_same s usd1 usd2 _).control

theorem exec_cache (op : BitVec 5) (ra : Reg) (imm : BitVec 15) : Meets s (exec (.cache op ra imm) s) := by
  refine meets_next ?_
  split
  · exact of_raise .ri
  · split
    · exact of_raiseAt .busErrData _
    · exact .kept rfl

/-- `cop` raises CpE after the register files are written (R392). -/
theorem exec_cop (n : BitVec 2) (code : BitVec 20) : Meets s (exec (.cop n code) s) := by
  refine meets_next (of_coprocessed ?_)
  dsimp only
  split
  · exact of_raise_after (setCop_same s n _) .cpe
  · exact .kept (setCop_same s n _).control

/-- What `lcw` does, and `lce` at an address that is not aligned. -/
theorem loadCombined (rd ra : Reg) : ControlEffect s (s.loadCombined rd ra) :=
  of_accessed (setLoadedBase_control _ rd ra _ _)

theorem exec_lce (rd ra : Reg) : Meets s (exec (.lce rd ra) s) := by
  refine meets_combined ?_
  split
  · exact .kept (setLoadedBase_control s rd ra _ _)
  · exact loadCombined s rd ra

theorem exec_sce (ra : Reg) : Meets s (exec (.sce ra) s) := by
  refine meets_combined ?_
  split
  · exact .kept rfl
  · exact of_accessed rfl

theorem exec_trapCond (c : Cond) (imm : BitVec 5) : Meets s (exec (.trapCond c imm) s) := by
  refine meets_next (of_controlled fun _ => ?_)
  split
  · exact of_raise .trap
  · exact .kept rfl

theorem exec_mfcr (rd : Reg) (crn : BitVec 5) : Meets s (exec (.mfcr rd crn) s) := by
  refine meets_next (of_controlled fun _ => ?_)
  split <;> exact .kept rfl

/-- A software breakpoint: nothing in Debug Mode, else Debug Mode is entered (R408, R480). -/
theorem breakpoint (brkSt : Bool) (len : Word) :
    ControlEffect s (if s.dreg.dm then s.advance len else s.debugEnter true brkSt) := by
  split
  · exact .kept rfl
  next h => exact .debugEntered s true brkSt (.refl s) (Bool.eq_false_of_not_eq_true h) rfl

/-- Everything that an instruction can do to the control registers. -/
theorem exec_controlEffect (i : Instr) : Meets s (exec i s) := by
  cases i with
  | nop | brCond | brCondL | pflush | add | addc | sub | subc | cmp | cmpz | neg | and | or | not | xor | bittst | sll
    | srl | sra | ror | rol | rorc | rolc | mul | mulF | mulu | mfcel | mfceh | mfcex0 | mtcel | mtceh | mtcehl |
    mtcex0 | tCond | extsb | extsh | extzb | extzh | slli | srli | srai | rori | roli | roric | rolic | addi | cmpi |
    andi | ori | ldi | addis | andis | oris | ldis | j | jl | bCond | bCondL | addri | andri | orri | mad | madu |
    madF | msb | msbu | msbF | mazl | mazlF | madl | madlFs | mszl | mszlF | msbl | msblFs | mazh | mazhF | madh |
    madhFs | mszh | mszhF | msbh | msbhFs | addS | subS | bitrev | clz | sllS | nop16 | mlfh16 | mhfl16 | mv16 |
    brCond16 | tCond16 | sll16 | addc16 | srl16 | sra16 | mtcel16 | mtceh16 | mfcel16 | mfceh16 | mulF16 | mulu16 |
    madF16 | madu16 | msbF16 | msbu16 | mazlF16 | mazhF16 | madlFs16 | madhFs16 | mszlF16 | mszhF16 | msblFs16 |
    msbhFs16 | add16 | sub16 | neg16 | cmp16 | and16 | or16 | not16 | xor16 | j16 | bCond16 | ldiu16 | addei16 |
    subei16 | slli16 | srli16 | bittst16 | min | max | abs | absS | jl16 =>
    exact meets_next (.kept rfl)
  | lw | lh | lhu | lb | lbu | lw16 | lh16 | lbu16 | lwp16 | lhp16 | lbup16 | sw | sh | sb | sw16 | sh16 | sb16 |
    swp16 | shp16 | sbp16 | swPre | shPre | sbPre | swPost | shPost | sbPost | push16 =>
    exact meets_next (of_accessed rfl)
  | lwPre | lhPre | lhuPre | lbPre | lbuPre | lwPost | lhPost | lhuPost | lbPost | lbuPost | pop16 =>
    exact meets_next (of_accessed (setLoadedBase_control ..))
  | mfcehl rd ra => exact meets_next (.kept (setLoadedBase_control s rd ra s.ceh s.cel))
  | mvCond c rd ra => exact exec_mvCond s c rd ra
  | div ra rb => exact exec_div s ra rb
  | divu ra rb => exact exec_divu s ra rb
  | mfsr rd n => exact exec_mfsr s rd n
  | mtsr ra n => exact exec_mtsr s ra n
  | ceinst func5 ra rb usd1 usd2 => exact exec_ceinst s func5 ra rb usd1 usd2
  | cache op ra imm => exact exec_cache s op ra imm
  | mtc | mtcc => exact meets_next (of_coprocessed (.kept (setCop_same ..).control))
  | mfc | mfcc => exact meets_next (of_coprocessed (.kept rfl))
  | ldc => exact meets_next (of_coprocessed (of_accessed (setCop_same ..).control))
  | stc => exact meets_next (of_coprocessed (of_accessed rfl))
  | cop n code => exact exec_cop s n code
  | lcb | scb | scw => exact meets_combined (of_accessed rfl)
  | lcw rd ra => exact meets_combined (loadCombined s rd ra)
  | lce rd ra => exact exec_lce s rd ra
  | sce ra => exact exec_sce s ra
  | syscall => exact meets_next (of_raise .syscall)
  | trapCond c imm => exact exec_trapCond s c imm
  | sdbbp => exact meets_next (breakpoint s false 4)
  | sdbbp16 => exact meets_next (breakpoint s true 2)
  | mfcr rd crn => exact exec_mfcr s rd crn
  | mtcr rd crn => exact meets_next (of_controlled fun hp => .written s crn (s.reg rd) (.refl s) hp rfl)
  | rte => exact meets_next (of_controlled fun hp => .returned s (.refl s) hp rfl)
  | drte => exact meets_next (of_controlled fun hp => .debugReturned s (.refl s) hp rfl)
  | sleep => exact meets_next (of_controlled fun _ => .kept rfl)

/-- The control state seen from a state that differs in registers, memory and bookkeeping only. -/
theorem of_same {s u t : State} (h : SameControl s u) (ht : ControlEffect u t) : ControlEffect s t := by
  have hpsr : u.psr = s.psr := congrArg ControlState.psr h.control
  have hdreg : u.dreg = s.dreg := congrArg ControlState.dreg h.control
  have hprivileged : u.privileged = s.privileged := by simp only [State.privileged, hpsr, hdreg]
  cases ht with
  | kept control => exact .kept (control.trans h.control)
  | entered v x addr same enter => exact .entered v x addr (h.trans same) (h.pc ▸ enter)
  | debugEntered v dbp brkSt same outside enter =>
    exact .debugEntered v dbp brkSt (h.trans same) (hdreg ▸ outside) enter
  | written v n w same allowed write => exact .written v n w (h.trans same) (hprivileged ▸ allowed) write
  | returned v same allowed ret => exact .returned v (h.trans same) (hprivileged ▸ allowed) ret
  | debugReturned v same allowed ret => exact .debugReturned v (h.trans same) (hprivileged ▸ allowed) ret

end ControlEffect

/-- Everything that a step can do to the control registers: what its instruction does, or the entry of its event or of the exception of its fetch. -/
theorem step_controlEffect {s t : State} (h : step s = .next t) : ControlEffect s t := by
  have htick : SameControl s s.tick := ⟨rfl, rfl, rfl⟩
  have hawake : SameControl s { s.tick with sleeping := false } := ⟨rfl, rfl, rfl⟩
  rcases step_cases h with hevent | ⟨-, ⟨-, rfl⟩ | ⟨-, ⟨x, a, rfl⟩ | rfl | ⟨i, hi⟩⟩⟩
  · obtain ⟨hdm, ⟨-, rfl⟩ | ⟨-, -, rfl⟩ | ⟨-, -, -, l, -, rfl⟩⟩ := event_cases hevent
    · exact .debugEntered _ false false hawake hdm rfl
    · exact .of_raise_after hawake .nmi
    · exact .of_raise_after hawake (.interrupt l)
  · exact .kept rfl
  · exact .of_same htick (.of_raiseAt x a)
  · exact .of_same htick (.of_raise .ri)
  · exact .of_same htick (ControlEffect.exec_controlEffect s.tick i t hi)

/-! ## What every step keeps of the launch (R50, R766) -/

/-- The launch parameters and cr18 are as they were, and clear remainders stay clear. -/
structure LaunchKept (s t : State) : Prop where
  cfg : t.cfg = s.cfg
  prev : t.prev = s.prev
  clear : s.remaindersClear = true → t.remaindersClear = true

namespace LaunchKept

variable {s t u : State}

theorem trans (h : LaunchKept s t) (h' : LaunchKept t u) : LaunchKept s u :=
  ⟨h'.cfg.trans h.cfg, h'.prev.trans h.prev, h'.clear ∘ h.clear⟩

/-- The remainders are part of the control state. -/
theorem of_control (h : t.control = s.control) : LaunchKept s t where
  cfg := congrArg ControlState.cfg h
  prev := congrArg ControlState.prev h
  clear hs := by
    have hcfg : t.cfg = s.cfg := congrArg ControlState.cfg h
    have hpsr : t.psr = s.psr := congrArg ControlState.psr h
    have hcond : t.condRest = s.condRest := congrArg ControlState.condRest h
    have hecr : t.ecr = s.ecr := congrArg ControlState.ecr h
    have hdreg : t.dreg = s.dreg := congrArg ControlState.dreg h
    rw [← hs]
    simp only [State.remaindersClear, hcfg, hpsr, hcond, hecr, hdreg]

/-- Entries and returns write named fields only. -/
theorem enter (s : State) (x : Exc) (epc : Word) (addr : Option Word) : LaunchKept s (s.enter x epc addr) :=
  ⟨rfl, rfl, id⟩

theorem debugEnter (s : State) (dbp brkSt : Bool) : LaunchKept s (s.debugEnter dbp brkSt) := ⟨rfl, rfl, id⟩

theorem returnFromException (s : State) : LaunchKept s s.returnFromException := ⟨rfl, rfl, id⟩

theorem returnFromDebug (s : State) : LaunchKept s s.returnFromDebug := ⟨rfl, rfl, id⟩

theorem advance (s : State) (len : Word) : LaunchKept s (s.advance len) := of_control rfl

/-- `mtcr` masks what it writes to a remainder, and has no case for cr18 (R50). -/
theorem setControlReg (s : State) (n : BitVec 5) (w : Word) : LaunchKept s (s.setControlReg n w) where
  cfg := by simp only [State.setControlReg]; split <;> rfl
  prev := by simp only [State.setControlReg]; split <;> rfl
  clear := setControlReg_remaindersClear n w

theorem of_controlEffect (h : ControlEffect s t) : LaunchKept s t := by
  cases h with
  | kept control => exact of_control control
  | entered u x addr same enter => exact enter ▸ (of_control same.control).trans (.enter u x s.pc addr)
  | debugEntered u dbp brkSt same _ enter =>
    exact enter ▸ (of_control same.control).trans (.debugEnter u dbp brkSt)
  | written u n v same _ write =>
    exact write ▸ ((of_control same.control).trans (setControlReg u n v)).trans (advance _ 4)
  | returned u same _ ret => exact ret ▸ (of_control same.control).trans (returnFromException u)
  | debugReturned u same _ ret => exact ret ▸ (of_control same.control).trans (returnFromDebug u)

end LaunchKept

/-- Settles O14, by the cases of what a step can do to the control registers. -/
theorem stepKeepsLaunch : Obligations.StepKeepsLaunch := by
  unfold Obligations.StepKeepsLaunch
  intro s t h
  obtain ⟨hcfg, hprev, hclear⟩ := LaunchKept.of_controlEffect (step_controlEffect h)
  exact ⟨hcfg, hprev, hclear⟩

/-! ## Control registers read back (R41, R383) -/

/-- A field bit taken out of a word and put back at its place is the word under the field's mask. -/
theorem bitAt_getLsbD_eq_and (w : Word) (p : Fin 32) : bitAt (w.getLsbD p) p = w &&& 1#32 <<< p.val := by
  have hmask : (1#32 <<< p.val : Word) = bitAt true p := rfl
  apply BitVec.eq_of_getLsbD_eq
  intro j _
  rw [hmask, BitVec.getLsbD_and, bitAt_getLsbD, bitAt_getLsbD, Bool.true_and]
  by_cases h : p.val = j
  · rw [h]
  · simp [h]

/-- A field of `n` bits taken out of a word and put back at its place is the word under the field's mask. -/
theorem extractLsb'_shiftLeft_eq_and (w : Word) (p n : Nat) :
    (w.extractLsb' p n).setWidth 32 <<< p = w &&& (BitVec.allOnes n).setWidth 32 <<< p := by
  apply BitVec.eq_of_getLsbD_eq
  intro j hj
  simp only [BitVec.getLsbD_shiftLeft, BitVec.getLsbD_setWidth, BitVec.getLsbD_extractLsb', BitVec.getLsbD_and,
    BitVec.getLsbD_allOnes]
  by_cases h : j < p
  · simp [h]
  · have hp : p + (j - p) = j := by omega
    have hj' : j - p < 32 := by omega
    simp [h, hp, hj, hj', Bool.and_comm]

/-- The fields of PSR and its remainder make up the word written (R42). -/
theorem psrImage_psrOfImage (l : PsrLayout) (w : Word) : psrImage l (psrOfImage l w) = w := by
  simp only [psrImage, psrOfImage, bitAt_getLsbD_eq_and, BitVec.or_assoc, ← BitVec.and_or_distrib_left]
  simp only [psrPlaces, fieldMask, BitVec.ofNat_eq_ofNat, BitVec.or_zero, BitVec.not_or_self, BitVec.and_allOnes]

/-- Five flags of a word, at their places, are the word under their mask (R43). -/
theorem flagsImage_flagsOfImage (l : FlagLayout) (w : Word) :
    flagsImage l (flagsOfImage l w) = w &&& fieldMask (flagPlaces l) := by
  simp only [flagsImage, flagsOfImage, bitAt_getLsbD_eq_and, BitVec.or_assoc, ← BitVec.and_or_distrib_left]
  simp only [flagPlaces, fieldMask, BitVec.ofNat_eq_ofNat, BitVec.or_zero]

/-- The ten flags and the remainder make up the word written to the Condition register (R43). -/
theorem conditionImage_setCondition (s : State) (w : Word) : (s.setCondition w).conditionImage = w := by
  simp only [State.conditionImage, setCondition_cfg, setCondition_flags, setCondition_savedFlags,
    setCondition_condRest, flagsImage_flagsOfImage, BitVec.or_assoc, ← BitVec.and_or_distrib_left (x := w),
    BitVec.not_or_self, BitVec.and_allOnes]

/-- The fields of DREG and its remainder make up the word written (R51). -/
theorem dregImage_dregOfImage (l : CrLayout) (w : Word) : dregImage l (dregOfImage l w) = w := by
  simp only [dregImage, dregOfImage, bitAt_getLsbD_eq_and, BitVec.or_assoc, ← BitVec.and_or_distrib_left]
  simp only [fieldMask, BitVec.ofNat_eq_ofNat, BitVec.or_zero, BitVec.not_or_self, BitVec.and_allOnes]

/-- Exc_code, IM and the remainder make up the word written to ECR (R44). -/
theorem ecrImage_ecrOfImage (l : CrLayout) (w : Word) : ecrImage l (ecrOfImage l w) = w := by
  have hcode : (w.extractLsb' l.excCode 5).setWidth 32 <<< l.excCode.val = w &&& 0x1F#32 <<< l.excCode.val :=
    extractLsb'_shiftLeft_eq_and w l.excCode 5
  have him : (w.extractLsb' l.im 16).setWidth 32 <<< l.im.val = w &&& 0xFFFF#32 <<< l.im.val :=
    extractLsb'_shiftLeft_eq_and w l.im 16
  simp only [ecrImage, ecrOfImage, ecrMask, hcode, him, BitVec.or_assoc, ← BitVec.and_or_distrib_left,
    BitVec.not_or_self, BitVec.and_allOnes]

/-- ECR read back, where Exc_code is writable (R383). -/
theorem ecrImage_setEcr {s : State} (h : s.cfg.excCodeWritable = true) (w : Word) :
    ecrImage s.cfg.layout (s.setEcr w).ecr = w := by
  simp only [State.setEcr, h, if_true, ecrImage_ecrOfImage]

/-- Settles O18: the registers that are one word each hold it; for the packed ones the image of the record is the word it was made from. -/
theorem controlRegisterReadBack : Obligations.ControlRegisterReadBack := by
  unfold Obligations.ControlRegisterReadBack
  intro s n v
  refine ⟨fun hn => ?_, fun hw => congrArg some (ecrImage_setEcr hw v), rfl⟩
  simp only [List.mem_cons, List.not_mem_nil, or_false] at hn
  rcases hn with rfl | rfl | rfl | rfl | rfl | rfl | rfl | rfl | rfl | rfl | rfl
  case inl => exact congrArg some (psrImage_psrOfImage s.cfg.layout.psr v)
  case inr.inl => exact congrArg some (conditionImage_setCondition s v)
  case inr.inr.inr.inr.inr.inr.inr.inr.inl => exact congrArg some (dregImage_dregOfImage s.cfg.layout v)
  all_goals rfl

/-! ## What a condition tests (R33) -/

section conditions

variable (s : State)

@[simp] theorem holds_cs : s.holds .cs = true ↔ s.flags.c = true := Iff.rfl

@[simp] theorem holds_cc : s.holds .cc = true ↔ s.flags.c = false := by simp [State.holds, condHolds]

@[simp] theorem holds_gtu : s.holds .gtu = true ↔ s.flags.c = true ∧ s.flags.z = false := by
  simp [State.holds, condHolds]

@[simp] theorem holds_leu : s.holds .leu = true ↔ s.flags.c = false ∨ s.flags.z = true := by
  simp [State.holds, condHolds]

@[simp] theorem holds_eq : s.holds .eq = true ↔ s.flags.z = true := Iff.rfl

@[simp] theorem holds_ne : s.holds .ne = true ↔ s.flags.z = false := by simp [State.holds, condHolds]

@[simp] theorem holds_gt : s.holds .gt = true ↔ s.flags.z = false ∧ s.flags.n = s.flags.v := by
  simp [State.holds, condHolds]

@[simp] theorem holds_le : s.holds .le = true ↔ s.flags.z = true ∨ s.flags.n ≠ s.flags.v := by
  simp [State.holds, condHolds]

@[simp] theorem holds_ge : s.holds .ge = true ↔ s.flags.n = s.flags.v := by simp [State.holds, condHolds]

@[simp] theorem holds_lt : s.holds .lt = true ↔ s.flags.n ≠ s.flags.v := by simp [State.holds, condHolds]

@[simp] theorem holds_mi : s.holds .mi = true ↔ s.flags.n = true := Iff.rfl

@[simp] theorem holds_pl : s.holds .pl = true ↔ s.flags.n = false := by simp [State.holds, condHolds]

@[simp] theorem holds_vs : s.holds .vs = true ↔ s.flags.v = true := Iff.rfl

@[simp] theorem holds_vc : s.holds .vc = true ↔ s.flags.v = false := by simp [State.holds, condHolds]

@[simp] theorem holds_cnz : s.holds .cnz = true ↔ 0 < s.cnt.toNat := by
  have h : s.cnt.toNat = 0 ↔ s.cnt = 0 := by simp [← BitVec.toNat_inj]
  simp [State.holds, condHolds, Nat.pos_iff_ne_zero, h]

@[simp] theorem holds_al : s.holds .al = true := rfl

end conditions

/-- Settles O23: `Cond.ofCode` evaluates on each literal code, and what is left is the test of that condition. -/
theorem conditionCodes : Obligations.ConditionCodes := by
  unfold Obligations.ConditionCodes
  intro s
  exact ⟨holds_cs s, holds_cc s, holds_gtu s, holds_leu s, holds_eq s, holds_ne s, holds_gt s, holds_le s,
    holds_ge s, holds_lt s, holds_mi s, holds_pl s, holds_vs s, holds_vc s, holds_cnz s, holds_al s⟩

/-! ## The flags of a comparison, read as an order of its operands (R200) -/

section comparisons

variable (a b : Word)

/-- C: there is no borrow where the unsigned order is `b ≤ a`. -/
theorem noBorrow_true_iff : noBorrow a b true = true ↔ b.toNat ≤ a.toNat := by simp [noBorrow]

/-- Z: the difference is 0 where the operands are equal. -/
theorem difference_beq_zero_iff : (difference a b true == 0) = true ↔ a = b := by
  simpa [difference] using sub_eq_zero (a := a) (b := b)

/-- N and V: the sign bit of the wrapped difference is wrong exactly where the difference overflows, so that the two agree where the exact difference is not negative. -/
theorem difference_msb_eq_subOverflow_iff :
    (difference a b true).msb = subOverflow a b true ↔ b.toInt ≤ a.toInt := by
  have ha := a.toInt_lt
  have ha' := a.le_toInt
  have hb := b.toInt_lt
  have hb' := b.le_toInt
  rw [msb_eq_neg, subOverflow_eq, difference_eq_toInt, BitVec.toInt_ofInt, Int.bmod_def, decide_eq_decide]
  simp only [Bool.toNat_true] at *
  split <;> omega

end comparisons

/-- `cmp.c` completes, and its flags C, Z and N = V are three relations of its operands. -/
theorem exec_cmp_flags (s : State) (tcs : Tcs) (ra rb : Reg) :
    ∃ t, exec (.cmp tcs ra rb) s = .next t ∧ (t.flags.c = true ↔ (s.reg rb).toNat ≤ (s.reg ra).toNat) ∧
      (t.flags.z = true ↔ s.reg ra = s.reg rb) ∧ (t.flags.n = t.flags.v ↔ (s.reg rb).toInt ≤ (s.reg ra).toInt) :=
  ⟨s.tested (cmpFlags tcs (s.reg ra) (s.reg rb)) 4, rfl, noBorrow_true_iff _ _, difference_beq_zero_iff _ _,
    difference_msb_eq_subOverflow_iff _ _⟩

/-- Settles O22: the conditions are combinations of the three relations of `exec_cmp_flags`; a strict order is the weak one without equality. -/
theorem compareThenCondition : Obligations.CompareThenCondition := by
  unfold Obligations.CompareThenCondition
  intro s tcs ra rb
  obtain ⟨t, ht, hc, hz, hnv⟩ := exec_cmp_flags s tcs ra rb
  have hNat : s.reg ra = s.reg rb ↔ (s.reg ra).toNat = (s.reg rb).toNat := BitVec.toNat_inj.symm
  have hInt : s.reg ra = s.reg rb ↔ (s.reg ra).toInt = (s.reg rb).toInt := BitVec.toInt_inj.symm
  refine ⟨t, ht, ?_⟩
  simp only [holds_cs, holds_cc, holds_gtu, holds_leu, holds_eq, holds_ne, holds_gt, holds_le, holds_ge, holds_lt,
    ← Bool.not_eq_true, ne_eq, hc, hz, hnv, not_le, true_and, and_true]
  refine ⟨?gtu, ?leu, ?gt, ?le⟩
  case gtu => rw [hNat]; omega
  case leu => rw [hNat]; omega
  case gt => rw [hInt]; omega
  case le => rw [hInt]; omega

/-! ## The branches on CNT (R34) -/

/-- What a branch on CNZ does, over the test of CNT against 0. -/
def State.counterBranched (s : State) (target len : Word) : State :=
  let taken := decide (0 < s.cnt.toNat)
  { s with
    pc := if taken then target else s.pc + len
    cnt := match s.cfg.cnzSideEffect with
      | .none => s.cnt
      | .decIfTaken => if taken then s.cnt - 1 else s.cnt
      | .decAlways => s.cnt - 1 }

theorem branched_cnz (s : State) (target len : Word) : s.branched .cnz target len = s.counterBranched target len := by
  have h : s.holds .cnz = decide (0 < s.cnt.toNat) := Bool.eq_iff_iff.2 (by simp)
  cases he : s.cfg.cnzSideEffect <;> simp [State.branched, State.countAfter, State.counterBranched, he, h]

/-- Settles O32: every branch on CNZ is `State.branched` at its own target, the link written after it. -/
theorem counterBranches : Obligations.CounterBranches := by
  unfold Obligations.CounterBranches
  intro s ra d19 d8 a taken goes linked
  have hgoes (target len : Word) : s.branched .cnz target len = goes target len := branched_cnz s target len
  have hnear {w : Nat} (d : BitVec w) (len : Word) :
      s.branched .cnz (branchTarget s.pc d) len = goes (s.pc + BitVec.ofInt 32 (2 * d.toInt)) len := by
    rw [hgoes, branchTarget_eq]
  have hnext {t u : State} (h : t = u) : (.next t : Result) = .next u := congrArg _ h
  exact ⟨hnext (hnear d19 4), hnext (congrArg linked (hnear d19 4)), hnext (hgoes (s.reg ra) 4),
    hnext (congrArg linked (hgoes (s.reg ra) 4)), hnext (hnear d8 2), hnext (hgoes (s.reg (g0 a)) 2)⟩

end Sys2Proof.Machine
end

section
/-! PROOFS. Memory: byte order, reads after writes, and the exceptions of data accesses (20_memory.md). -/

namespace Sys2Proof.Machine

/-! ## The bytes of half-words and words (R81) -/

/-- The place of byte `i` of an access in the value that it moves, counted in bytes from the low end (R81). -/
def bytePlace (littleEndian : Bool) (w : Width) (i : Nat) : Nat :=
  if littleEndian then i else w.bytes - 1 - i

theorem toNat_two_bytes (b1 b0 : Byte) : (b1 ++ b0 : Half).toNat = b1.toNat * 2 ^ 8 + b0.toNat :=
  toNat_append_of_lt b1 b0

theorem toNat_four_bytes (b3 b2 b1 b0 : Byte) :
    (b3 ++ b2 ++ b1 ++ b0 : Word).toNat = b3.toNat * 2 ^ 24 + b2.toNat * 2 ^ 16 + b1.toNat * 2 ^ 8 + b0.toNat := by
  have h : (b3 ++ b2 ++ b1 ++ b0 : Word).toNat = ((b3 ++ b2) ++ b1 ++ b0).toNat := rfl
  rw [h, toNat_append_of_lt, toNat_append_of_lt, toNat_append_of_lt]
  omega

/-- A half-word read is the sum of its bytes at their places. -/
theorem half_toNat (s : State) (a : Word) :
    (s.half a).toNat = (s.byte a).toNat * 2 ^ (8 * bytePlace s.cfg.littleEndian .half 0) +
      (s.byte (a + 1#32)).toNat * 2 ^ (8 * bytePlace s.cfg.littleEndian .half 1) := by
  unfold State.half halfOfBytes
  cases s.cfg.littleEndian <;> simp [toNat_two_bytes, bytePlace, Width.bytes]
  omega

/-- A word read is the sum of its bytes at their places. -/
theorem word_toNat (s : State) (a : Word) :
    (s.word a).toNat = (s.byte a).toNat * 2 ^ (8 * bytePlace s.cfg.littleEndian .word 0) +
      (s.byte (a + 1#32)).toNat * 2 ^ (8 * bytePlace s.cfg.littleEndian .word 1) +
      (s.byte (a + 2#32)).toNat * 2 ^ (8 * bytePlace s.cfg.littleEndian .word 2) +
      (s.byte (a + 3#32)).toNat * 2 ^ (8 * bytePlace s.cfg.littleEndian .word 3) := by
  unfold State.word wordOfBytes
  cases s.cfg.littleEndian <;> simp [toNat_four_bytes, bytePlace, Width.bytes]
  omega

@[simp] theorem length_storedBytes (littleEndian : Bool) (w : Width) (v : Word) :
    (storedBytes littleEndian w v).length = w.bytes := by
  cases w <;> cases littleEndian <;> rfl

/-- Byte `i` of a stored value is the byte of the value at its place. -/
theorem toNat_getElem_storedBytes (littleEndian : Bool) (w : Width) (v : Word) {i : Nat}
    (h : i < (storedBytes littleEndian w v).length) :
    (storedBytes littleEndian w v)[i].toNat = v.toNat / 2 ^ (8 * bytePlace littleEndian w i) % 2 ^ 8 := by
  have hi : i < w.bytes := length_storedBytes littleEndian w v ▸ h
  cases w with
  | byte =>
    obtain rfl : i = 0 := Nat.lt_one_iff.1 hi
    cases littleEndian <;> simp [storedBytes, bytePlace, Width.bytes]
  | half =>
    obtain rfl | rfl : i = 0 ∨ i = 1 := by simp only [Width.bytes] at hi; omega
    all_goals
      cases littleEndian <;> simp [storedBytes, bytesOfHalf, bytePlace, Width.bytes, Nat.shiftRight_eq_div_pow]
  | word =>
    obtain rfl | rfl | rfl | rfl : i = 0 ∨ i = 1 ∨ i = 2 ∨ i = 3 := by simp only [Width.bytes] at hi; omega
    all_goals
      cases littleEndian <;>
        simp [storedBytes, bytesOfWord, wordBytes, bytePlace, Width.bytes, Nat.shiftRight_eq_div_pow]

section stored

variable {s : State} (w : Width) (a v : Word) (hwf : Memory.wf s.mem = true)
include hwf

/-- A stored byte reads back as the byte of the value at its place. -/
theorem toNat_byte_stored {i : Nat} (hi : i < w.bytes) :
    ((s.stored w a v).byte (a + BitVec.ofNat 32 i)).toNat =
      v.toNat / 2 ^ (8 * bytePlace s.cfg.littleEndian w i) % 2 ^ 8 := by
  have hlength := length_storedBytes s.cfg.littleEndian w v
  have hlarge : w.bytes ≤ 2 ^ 32 := by cases w <;> decide
  have hread := readByte_writeBytes_inside (a := a) hwf (hlength.trans_le hlarge) (hi.trans_eq hlength.symm)
  exact (congrArg BitVec.toNat hread).trans (toNat_getElem_storedBytes _ w v _)

/-- A byte outside the stored ones reads as before (R81, R89). -/
theorem byte_stored_outside {x : Word} (hx : ∀ i < w.bytes, x ≠ a + BitVec.ofNat 32 i) :
    (s.stored w a v).byte x = s.byte x := by
  rw [← length_storedBytes s.cfg.littleEndian w v] at hx
  exact readByte_writeBytes_outside hwf hx

/-- The first stored byte is at the address of the store itself. -/
theorem toNat_byte_stored_zero :
    ((s.stored w a v).byte a).toNat = v.toNat / 2 ^ (8 * bytePlace s.cfg.littleEndian w 0) % 2 ^ 8 := by
  have hpos : 0 < w.bytes := by cases w <;> decide
  simpa using toNat_byte_stored w a v hwf hpos

theorem byte_stored_byte : ((s.stored .byte a v).byte a).toNat = v.toNat % 2 ^ 8 := by
  rw [toNat_byte_stored_zero .byte a v hwf]
  cases s.cfg.littleEndian <;> simp [bytePlace, Width.bytes]

theorem half_stored_half : ((s.stored .half a v).half a).toNat = v.toNat % 2 ^ 16 := by
  have h0 := toNat_byte_stored_zero .half a v hwf
  have h1 := toNat_byte_stored .half a v hwf (i := 1) (by decide)
  rw [half_toNat, h0, h1, stored_cfg]
  cases s.cfg.littleEndian <;> simp [bytePlace, Width.bytes] <;> omega

theorem word_stored_word : (s.stored .word a v).word a = v := by
  have h0 := toNat_byte_stored_zero .word a v hwf
  have h1 := toNat_byte_stored .word a v hwf (i := 1) (by decide)
  have h2 := toNat_byte_stored .word a v hwf (i := 2) (by decide)
  have h3 := toNat_byte_stored .word a v hwf (i := 3) (by decide)
  apply BitVec.eq_of_toNat_eq
  rw [word_toNat, h0, h1, h2, h3, stored_cfg]
  cases s.cfg.littleEndian <;> simp [bytePlace, Width.bytes] <;> omega

end stored

/-- Settles O16: the places of the bytes, spelled out for each of the two byte orders. -/
theorem byteOrder : Obligations.ByteOrder := by
  unfold Obligations.ByteOrder
  intro s a v b after
  have hstored (hwf : Memory.wf s.mem = true) (w : Width) :
      ∀ k < w.bytes, after w k = v.toNat / 2 ^ (8 * bytePlace s.cfg.littleEndian w k) % 2 ^ 8 :=
    fun _ hk => toNat_byte_stored w a v hwf hk
  refine ⟨fun hbig => ⟨?_, ?_, fun hwf => ?_⟩, fun hlittle => ⟨?_, ?_, fun hwf => ?_⟩⟩
  · simp [half_toNat, hbig, bytePlace, Width.bytes, b]
  · simp [word_toNat, hbig, bytePlace, Width.bytes, b]
  · rw [hbig] at hstored
    exact ⟨hstored hwf .half, hstored hwf .word⟩
  · simp [half_toNat, hlittle, bytePlace, b]; omega
  · simp [word_toNat, hlittle, bytePlace, b]; omega
  · rw [hlittle] at hstored
    exact ⟨hstored hwf .half, hstored hwf .word⟩

/-- Settles O17: the bytes at their places make up the value again, and a store writes no byte but its own. -/
theorem storeThenLoad : Obligations.StoreThenLoad := by
  unfold Obligations.StoreThenLoad
  intro s w a v hwf
  refine ⟨?word, ?half, ?byte, fun x => byte_stored_outside w a v hwf⟩
  case word => exact fun h => h ▸ word_stored_word a v hwf
  case half => exact fun h => h ▸ half_stored_half a v hwf
  case byte => exact fun h => h ▸ byte_stored_byte a v hwf

/-! ## What MemMap answers (R90, R106) -/

/-- A rule fits where its range, its kind and its mode do; the mode is Debug where DM is 1, else User or Kernel by UMc (R710). -/
theorem mapRuleFits_mode_iff (s : State) (r : MapRule) (a : Word) (k : AccessKind) :
    mapRuleFits r a k s.mode = true ↔ r.lo.toNat ≤ a.toNat ∧ a.toNat ≤ r.hi.toNat ∧ r.kind = k ∧
      r.mode = if s.dreg.dm = true then .debug else if s.psr.umc = true then .user else .kernel := by
  simp only [mapRuleFits, Bool.and_eq_true, decide_eq_true_eq, and_assoc]
  rfl

/-- The verdict is that of the first rule that fits. -/
theorem memMapVerdict_eq_find? (rules : List MapRule) (a : Word) (k : AccessKind) (m : Mode) :
    memMapVerdict rules a k m = ((rules.find? (mapRuleFits · a k m)).map (·.verdict)).getD .ok := by
  induction rules with
  | nil => rfl
  | cons r rest ih => cases h : mapRuleFits r a k m <;> simp [memMapVerdict, h, ih]

theorem memMap_of_first_fit {s : State} {a : Word} {k : AccessKind} {pre post : List MapRule} {r : MapRule}
    (hrules : s.cfg.memMap = pre ++ r :: post) (hpre : ∀ q ∈ pre, ¬mapRuleFits q a k s.mode = true)
    (hr : mapRuleFits r a k s.mode = true) : s.memMap a k = r.verdict := by
  rw [State.memMap, memMapVerdict_eq_find?, hrules, List.find?_append, List.find?_eq_none.2 hpre, Option.none_or,
    List.find?_cons_of_pos (p := (mapRuleFits · a k s.mode)) hr]
  rfl

theorem memMap_of_no_fit {s : State} {a : Word} {k : AccessKind}
    (h : ∀ q ∈ s.cfg.memMap, ¬mapRuleFits q a k s.mode = true) : s.memMap a k = .ok := by
  rw [State.memMap, memMapVerdict_eq_find?, List.find?_eq_none.2 h]
  rfl

/-! ## The exceptions of a data access (R300) -/

/-- The instruction completes with one data access of this kind and size at `ea`, and does nothing else where the access raises its exception. -/
def Accesses (s : State) (k : AccessKind) (w : Width) (i : Instr) (ea : Word) : Prop :=
  ∃ effect, exec i s = .next (s.accessed k w ea effect)

theorem accessed_of_dataFault {s : State} {k : AccessKind} {w : Width} {ea : Word} {x : Exc}
    (h : s.dataFault k w ea = some x) (effect : State) :
    s.accessed k w ea effect = s.enter x s.pc (some ea) := by
  simp only [State.accessed, h, State.raiseAt]

namespace Accesses

variable {s : State} {k : AccessKind} {w : Width} {i : Instr} {ea : Word}

/-- The same access with its address in another form. -/
theorem at_address {ea' : Word} (h : Accesses s k w i ea') (he : ea' = ea) : Accesses s k w i ea := he ▸ h

theorem raises_of_dataFault (h : Accesses s k w i ea) {x : Exc} (hx : s.dataFault k w ea = some x) :
    exec i s = .next (s.enter x s.pc (some ea)) := by
  obtain ⟨effect, he⟩ := h
  rw [he, accessed_of_dataFault hx]

theorem raises_of_misaligned (h : Accesses s k w i ea) (ha : ea.toNat % w.bytes ≠ 0) :
    exec i s = .next (s.enter (addressErrorOf k) s.pc (some ea)) :=
  h.raises_of_dataFault (by simp [State.dataFault, misaligned_eq, ha])

theorem raises_of_addressError (h : Accesses s k w i ea) (hm : s.memMap ea k = .addressError) :
    exec i s = .next (s.enter (addressErrorOf k) s.pc (some ea)) :=
  h.raises_of_dataFault (by simp [State.dataFault, State.mapFault, hm])

theorem raises_of_busError (h : Accesses s k w i ea) (ha : ea.toNat % w.bytes = 0) (hm : s.memMap ea k = .busError) :
    exec i s = .next (s.enter (busErrorOf k) s.pc (some ea)) :=
  h.raises_of_dataFault (by simp [State.dataFault, State.mapFault, misaligned_eq, ha, hm])

end Accesses

/-! ## The accesses of the loads and stores -/

/-- The address of a `*p!` instruction (R470). -/
theorem basePointer_address (s : State) (w : Width) (off : BitVec 5) :
    s.reg basePointer + baseOffset w off = s.reg 2 + BitVec.ofNat 32 (w.bytes * off.toNat) := by
  rw [baseOffset_eq]
  rfl

/-- The base of `push!` and `pop!` (R466). -/
theorem reg_gBase (s : State) (b : BitVec 3) : s.reg (gBase b) = s.reg (b.setWidth 5) := by rw [gBase_eq]

/-- Settles O39: every load is one load access at its effective address. -/
theorem loadExceptions : Obligations.LoadExceptions := by
  unfold Obligations.LoadExceptions
  intro s rd ra i15 i12 d a off h base ea old new bp words halves bytes raises fits
  have hraises {w : Width} {p : Instr × Word} (hp : Accesses s .load w p.1 p.2) : raises w.bytes p :=
    ⟨hp.raises_of_misaligned, fun _ => hp.raises_of_addressError, hp.raises_of_busError⟩
  have hfits (r : MapRule) (x : Word) (k : AccessKind) : mapRuleFits r x k s.mode = true ↔ fits r x k :=
    mapRuleFits_mode_iff s r x k
  have hwords : ∀ p ∈ words, Accesses s .load .word p.1 p.2 := by
    have hlwp : Accesses s .load .word (.lwp16 d off) (bp 4) :=
      .at_address ⟨_, rfl⟩ (basePointer_address s .word off)
    have hpop : Accesses s .load .word (.pop16 d h base) (s.reg (base.setWidth 5)) :=
      .at_address ⟨_, rfl⟩ (reg_gBase s base)
    simp only [words, List.forall_mem_cons]
    exact ⟨⟨_, rfl⟩, ⟨_, rfl⟩, ⟨_, rfl⟩, ⟨_, rfl⟩, hlwp, hpop, List.forall_mem_nil _⟩
  have hhalves : ∀ p ∈ halves, Accesses s .load .half p.1 p.2 := by
    have hlhp : Accesses s .load .half (.lhp16 d off) (bp 2) :=
      .at_address ⟨_, rfl⟩ (basePointer_address s .half off)
    simp only [halves, List.forall_mem_cons]
    exact ⟨⟨_, rfl⟩, ⟨_, rfl⟩, ⟨_, rfl⟩, ⟨_, rfl⟩, ⟨_, rfl⟩, ⟨_, rfl⟩, ⟨_, rfl⟩, hlhp, List.forall_mem_nil _⟩
  have hbytes : ∀ p ∈ bytes, Accesses s .load .byte p.1 p.2 := by
    have hlbup : Accesses s .load .byte (.lbup16 d off) (bp 1) :=
      .at_address ⟨_, rfl⟩ (basePointer_address s .byte off)
    simp only [bytes, List.forall_mem_cons]
    exact ⟨⟨_, rfl⟩, ⟨_, rfl⟩, ⟨_, rfl⟩, ⟨_, rfl⟩, ⟨_, rfl⟩, ⟨_, rfl⟩, ⟨_, rfl⟩, hlbup, List.forall_mem_nil _⟩
  refine ⟨fun p hp => hraises (hwords p hp), fun p hp => hraises (hhalves p hp), fun p hp => hraises (hbytes p hp),
    fun x k => ⟨fun pre r post hrules hpre hr => ?_, fun hnone => ?_⟩⟩
  · simp only [← hfits] at hpre hr
    exact memMap_of_first_fit hrules hpre hr
  · simp only [← hfits] at hnone
    exact memMap_of_no_fit hnone

/-- Settles O40: every store is one store access at its effective address. -/
theorem storeExceptions : Obligations.StoreExceptions := by
  unfold Obligations.StoreExceptions
  intro s rd ra i15 i12 d a off h base ea old new bp words halves bytes raises
  have hraises {w : Width} {p : Instr × Word} (hp : Accesses s .store w p.1 p.2) : raises w.bytes p :=
    ⟨hp.raises_of_misaligned, fun _ => hp.raises_of_addressError, hp.raises_of_busError⟩
  have hwords : ∀ p ∈ words, Accesses s .store .word p.1 p.2 := by
    have hswp : Accesses s .store .word (.swp16 d off) (bp 4) :=
      .at_address ⟨_, rfl⟩ (basePointer_address s .word off)
    have hpush : Accesses s .store .word (.push16 d h base) (s.reg (base.setWidth 5) - 4) :=
      .at_address ⟨_, rfl⟩ (congrArg (· - 4) (reg_gBase s base))
    simp only [words, List.forall_mem_cons]
    exact ⟨⟨_, rfl⟩, ⟨_, rfl⟩, ⟨_, rfl⟩, ⟨_, rfl⟩, hswp, hpush, List.forall_mem_nil _⟩
  have hhalves : ∀ p ∈ halves, Accesses s .store .half p.1 p.2 := by
    have hshp : Accesses s .store .half (.shp16 d off) (bp 2) :=
      .at_address ⟨_, rfl⟩ (basePointer_address s .half off)
    simp only [halves, List.forall_mem_cons]
    exact ⟨⟨_, rfl⟩, ⟨_, rfl⟩, ⟨_, rfl⟩, ⟨_, rfl⟩, hshp, List.forall_mem_nil _⟩
  have hbytes : ∀ p ∈ bytes, Accesses s .store .byte p.1 p.2 := by
    have hsbp : Accesses s .store .byte (.sbp16 d off) (bp 1) :=
      .at_address ⟨_, rfl⟩ (basePointer_address s .byte off)
    simp only [bytes, List.forall_mem_cons]
    exact ⟨⟨_, rfl⟩, ⟨_, rfl⟩, ⟨_, rfl⟩, ⟨_, rfl⟩, hsbp, List.forall_mem_nil _⟩
  exact ⟨fun p hp => hraises (hwords p hp), fun p hp => hraises (hhalves p hp), fun p hp => hraises (hbytes p hp)⟩

/-! ## The accesses of the combine instructions and of `ldc` and `stc` -/

theorem combined_big {s : State} (h : s.cfg.littleEndian = false) (effect : State) :
    s.combined effect = .next effect := by
  simp [State.combined, h]

theorem coprocessed_usable {s : State} {n : BitVec 2} (hn : n ≠ 0) (hu : s.copUsable n = true)
    (hp : s.copPresent n = true) (effect : State) : s.coprocessed n effect = effect := by
  rw [State.coprocessed, if_neg hn, hu, hp]
  rfl

theorem wordAddress_mod (a : Word) : (wordAddress a).toNat % Width.word.bytes = 0 := by
  rw [wordAddress_toNat]
  exact Nat.mul_mod_left _ 4

namespace Accesses

section combine

variable {s : State} (hbig : s.cfg.littleEndian = false) (rd ra : Reg)
include hbig

theorem lcb : Accesses s .load .word (.lcb ra) (wordAddress (s.reg ra)) := ⟨_, combined_big hbig _⟩

theorem lcw : Accesses s .load .word (.lcw rd ra) (wordAddress (s.reg ra)) := ⟨_, combined_big hbig _⟩

theorem scb : Accesses s .store .byte (.scb rd ra) (s.reg ra) := ⟨_, combined_big hbig _⟩

theorem scw : Accesses s .store .word (.scw rd ra) (wordAddress (s.reg ra)) := ⟨_, combined_big hbig _⟩

theorem lce (hn : misalignment (s.reg ra) ≠ 0) : Accesses s .load .word (.lce rd ra) (wordAddress (s.reg ra)) :=
  ⟨_, (combined_big hbig _).trans (congrArg _ (if_neg hn))⟩

theorem sce (hn : misalignment (s.reg ra) ≠ 0) : Accesses s .store .byte (.sce ra) (wordAddress (s.reg ra)) :=
  ⟨_, (combined_big hbig _).trans (congrArg _ (if_neg hn))⟩

end combine

section coprocessor

variable {s : State} {n : BitVec 2} (hn : n ≠ 0) (hu : s.copUsable n = true) (hp : s.copPresent n = true)
  (rd : Reg) (cra : BitVec 5) (imm : BitVec 10)
include hn hu hp

theorem ldc : Accesses s .load .word (.ldc n rd cra imm) (s.reg rd + copOffset imm) :=
  ⟨_, congrArg _ (coprocessed_usable hn hu hp _)⟩

theorem stc : Accesses s .store .word (.stc n rd cra imm) (s.reg rd + copOffset imm) :=
  ⟨_, congrArg _ (coprocessed_usable hn hu hp _)⟩

end coprocessor

end Accesses

/-- Settles O46: each instruction is one data access at its address, which is aligned; bytes always are. -/
theorem combineAndCoprocessorExceptions : Obligations.CombineAndCoprocessorExceptions := by
  unfold Obligations.CombineAndCoprocessorExceptions
  intro s rd ra n cra imm a wa ea raises
  have hload {w : Width} {i : Instr} {x : Word} (hi : Accesses s .load w i x) (hx : x.toNat % w.bytes = 0) :
      raises i .load x := ⟨hi.raises_of_addressError, hi.raises_of_busError hx⟩
  have hstore {w : Width} {i : Instr} {x : Word} (hi : Accesses s .store w i x) (hx : x.toNat % w.bytes = 0) :
      raises i .store x := ⟨hi.raises_of_addressError, hi.raises_of_busError hx⟩
  have hwa : wordAddress a = wa := wordAddress_eq a
  have hword : wa.toNat % Width.word.bytes = 0 := hwa ▸ wordAddress_mod a
  have hbyte (x : Word) : x.toNat % Width.byte.bytes = 0 := Nat.mod_one _
  have hea : s.reg rd + copOffset imm = ea := by rw [copOffset_eq]
  refine ⟨fun hbig => ⟨hload (.at_address (.lcb hbig ra) hwa) hword, hload (.at_address (.lcw hbig rd ra) hwa) hword,
    hstore (.scb hbig rd ra) (hbyte a), hstore (.at_address (.scw hbig rd ra) hwa) hword, fun hn => ?_⟩,
    fun hn hu hp hx => ⟨hload (.at_address (.ldc hn hu hp rd cra imm) hea) hx,
      hstore (.at_address (.stc hn hu hp rd cra imm) hea) hx⟩⟩
  have hmis : misalignment a ≠ 0 := misalignment_eq a ▸ hn
  exact ⟨hload (.at_address (.lce hbig rd ra hmis) hwa) hword, hstore (.at_address (.sce hbig ra hmis) hwa) (hbyte wa)⟩

end Sys2Proof.Machine
end

section
/-! PROOFS. The encoding: the decoder and the encoder are inverse to each other, and a step runs the decoded instruction (30_encoding.md). -/

namespace Sys2Proof

/-! ## A word is a form of its own fields (R126, R127) -/

section fields

open BitVec (extractLsb'_append_extractLsb'_eq_extractLsb' extractLsb'_eq_self)

variable {m : BitVec 30}

theorem exists_specialForm (hop : m.extractLsb' 25 5 = 0b00000#5) (hmid : m.extractLsb' 7 3 = 0b000#3) :
    ∃ rd ra rb func6 b0, m = specialForm rd ra rb func6 b0 := by
  refine ⟨m.extractLsb' 20 5, m.extractLsb' 15 5, m.extractLsb' 10 5, m.extractLsb' 1 6, m.extractLsb' 0 1, ?_⟩
  rw [specialForm, ← hop, ← hmid]
  simp (disch := decide) only [extractLsb'_append_extractLsb'_eq_extractLsb']
  exact extractLsb'_eq_self.symm

theorem exists_iForm {op : BitVec 5} (hop : m.extractLsb' 25 5 = op) :
    ∃ rd func3 imm b0, m = iForm op rd func3 imm b0 := by
  refine ⟨m.extractLsb' 20 5, m.extractLsb' 17 3, m.extractLsb' 1 16, m.extractLsb' 0 1, ?_⟩
  rw [iForm, ← hop]
  simp (disch := decide) only [extractLsb'_append_extractLsb'_eq_extractLsb']
  exact extractLsb'_eq_self.symm

theorem exists_riForm {op : BitVec 5} (hop : m.extractLsb' 25 5 = op) :
    ∃ rd ra imm b0, m = riForm op rd ra imm b0 := by
  refine ⟨m.extractLsb' 20 5, m.extractLsb' 15 5, m.extractLsb' 1 14, m.extractLsb' 0 1, ?_⟩
  rw [riForm, ← hop]
  simp (disch := decide) only [extractLsb'_append_extractLsb'_eq_extractLsb']
  exact extractLsb'_eq_self.symm

theorem exists_rixForm {op : BitVec 5} (hop : m.extractLsb' 25 5 = op) :
    ∃ rd ra imm func3, m = rixForm op rd ra imm func3 := by
  refine ⟨m.extractLsb' 20 5, m.extractLsb' 15 5, m.extractLsb' 3 12, m.extractLsb' 0 3, ?_⟩
  rw [rixForm, ← hop]
  simp (disch := decide) only [extractLsb'_append_extractLsb'_eq_extractLsb']
  exact extractLsb'_eq_self.symm

theorem exists_memoryForm {op : BitVec 5} (hop : m.extractLsb' 25 5 = op) :
    ∃ rd ra imm, m = memoryForm op rd ra imm := by
  refine ⟨m.extractLsb' 20 5, m.extractLsb' 15 5, m.extractLsb' 0 15, ?_⟩
  rw [memoryForm, ← hop]
  simp (disch := decide) only [extractLsb'_append_extractLsb'_eq_extractLsb']
  exact extractLsb'_eq_self.symm

theorem exists_jForm (hop : m.extractLsb' 25 5 = 0b00010#5) :
    ∃ disp lk, m = jForm disp lk := by
  refine ⟨m.extractLsb' 1 24, m.extractLsb' 0 1, ?_⟩
  rw [jForm, ← hop]
  simp (disch := decide) only [extractLsb'_append_extractLsb'_eq_extractLsb']
  exact extractLsb'_eq_self.symm

theorem exists_bcForm (hop : m.extractLsb' 25 5 = 0b00100#5) :
    ∃ disp bc lk, m = bcForm disp bc lk := by
  refine ⟨m.extractLsb' 15 10 ++ m.extractLsb' 1 9, m.extractLsb' 10 5, m.extractLsb' 0 1, ?_⟩
  rw [bcForm, ← hop, BitVec.extractLsb'_append_eq_left, BitVec.extractLsb'_append_eq_right]
  simp (disch := decide) only [extractLsb'_append_extractLsb'_eq_extractLsb']
  exact extractLsb'_eq_self.symm

theorem exists_crForm (hop : m.extractLsb' 25 5 = 0b00110#5) (hmid : m.extractLsb' 8 7 = 0b0000000#7) :
    ∃ rd crn crOp, m = crForm rd crn crOp := by
  refine ⟨m.extractLsb' 20 5, m.extractLsb' 15 5, m.extractLsb' 0 8, ?_⟩
  rw [crForm, ← hop, ← hmid]
  simp (disch := decide) only [extractLsb'_append_extractLsb'_eq_extractLsb']
  exact extractLsb'_eq_self.symm

theorem exists_copMoveForm (hop : m.extractLsb' 25 5 = 0b00110#5) :
    ∃ rd cra imm n subOp, m = copMoveForm rd cra imm n subOp := by
  refine ⟨m.extractLsb' 20 5, m.extractLsb' 15 5, m.extractLsb' 5 10, m.extractLsb' 3 2, m.extractLsb' 0 3, ?_⟩
  rw [copMoveForm, ← hop]
  simp (disch := decide) only [extractLsb'_append_extractLsb'_eq_extractLsb']
  exact extractLsb'_eq_self.symm

theorem exists_ceForm (hop : m.extractLsb' 25 5 = 0b11010#5) :
    ∃ usd1 ra rb usd2 func5, m = ceForm usd1 ra rb usd2 func5 := by
  refine ⟨m.extractLsb' 20 5, m.extractLsb' 15 5, m.extractLsb' 10 5, m.extractLsb' 5 5, m.extractLsb' 0 5, ?_⟩
  rw [ceForm, ← hop]
  simp (disch := decide) only [extractLsb'_append_extractLsb'_eq_extractLsb']
  exact extractLsb'_eq_self.symm

theorem exists_macForm (hop : m.extractLsb' 25 5 = 0b11100#5) :
    ∃ rd ra rb low, m = macForm rd ra rb low := by
  refine ⟨m.extractLsb' 20 5, m.extractLsb' 15 5, m.extractLsb' 10 5, m.extractLsb' 0 10, ?_⟩
  rw [macForm, ← hop]
  simp (disch := decide) only [extractLsb'_append_extractLsb'_eq_extractLsb']
  exact extractLsb'_eq_self.symm

variable {h : BitVec 15}

theorem exists_rForm16 {op : BitVec 3} (hop : h.extractLsb' 12 3 = op) :
    ∃ rd ra func4, h = rForm16 op rd ra func4 := by
  refine ⟨h.extractLsb' 8 4, h.extractLsb' 4 4, h.extractLsb' 0 4, ?_⟩
  rw [rForm16, ← hop]
  simp (disch := decide) only [extractLsb'_append_extractLsb'_eq_extractLsb']
  exact extractLsb'_eq_self.symm

theorem exists_iForm16 {op : BitVec 3} (hop : h.extractLsb' 12 3 = op) :
    ∃ rd imm func3, h = iForm16 op rd imm func3 := by
  refine ⟨h.extractLsb' 8 4, h.extractLsb' 3 5, h.extractLsb' 0 3, ?_⟩
  rw [iForm16, ← hop]
  simp (disch := decide) only [extractLsb'_append_extractLsb'_eq_extractLsb']
  exact extractLsb'_eq_self.symm

theorem exists_wideForm16 {op : BitVec 3} (hop : h.extractLsb' 12 3 = op) :
    ∃ rd imm, h = wideForm16 op rd imm := by
  refine ⟨h.extractLsb' 8 4, h.extractLsb' 0 8, ?_⟩
  rw [wideForm16, ← hop]
  simp (disch := decide) only [extractLsb'_append_extractLsb'_eq_extractLsb']
  exact extractLsb'_eq_self.symm

theorem exists_jForm16 (hop : h.extractLsb' 12 3 = 0b011#3) :
    ∃ disp lk, h = jForm16 disp lk := by
  refine ⟨h.extractLsb' 1 11, h.extractLsb' 0 1, ?_⟩
  rw [jForm16, ← hop]
  simp (disch := decide) only [extractLsb'_append_extractLsb'_eq_extractLsb']
  exact extractLsb'_eq_self.symm

end fields

/-- The Imm15 of `syscall` is the three register fields of the Special form (R131). -/
theorem specialImmForm_append (rd ra rb : BitVec 5) (func6 : BitVec 6) (b0 : BitVec 1) :
    specialImmForm (rd ++ ra ++ rb) func6 b0 = specialForm rd ra rb func6 b0 := by
  simp only [specialImmForm, specialForm, BitVec.append_assoc, BitVec.cast_eq]

theorem specialForm_10_15 (rd ra rb : BitVec 5) (func6 : BitVec 6) (b0 : BitVec 1) :
    (specialForm rd ra rb func6 b0).extractLsb' 10 15 = rd ++ ra ++ rb := by
  rw [← specialImmForm_append, specialImmForm_10_15]

/-- The code of `cop` is the fields rD, CrA and Imm10 of the move form (R134). -/
theorem copForm_append (rd cra : BitVec 5) (imm : BitVec 10) (n : BitVec 2) :
    copForm (rd ++ cra ++ imm) n = copMoveForm rd cra imm n 0b100#3 := by
  simp only [copForm, copMoveForm, BitVec.append_assoc, BitVec.cast_eq]

/-! ## Parts of a field (R33, R128) -/

theorem exists_ofBool (b : BitVec 1) : ∃ c, b = BitVec.ofBool c := ⟨b[0], by revert b; decide⟩

/-- A field that holds a number is that literal. -/
theorem eq_ofNat_of_toNat {w n : Nat} {x : BitVec w} (h : x.toNat = n) : x = BitVec.ofNat w n := by
  rw [← h, BitVec.ofNat_toNat, BitVec.setWidth_eq]

/-- A condition's slot is its code below a zero (R128). -/
theorem cond_slot {x : BitVec 5} (h : x[4] = false) : 0b0#1 ++ (Cond.ofCode (x.extractLsb' 0 4)).code = x := by
  rw [code_ofCode]; revert x; decide

/-- TCS stands in the low bits of rD, below three zeros (R200). -/
theorem tcs_slot {x : BitVec 5} (h : x.extractLsb' 2 3 = 0b000#3) :
    0b000#3 ++ (Tcs.ofCode (x.extractLsb' 0 2)).code = x := by
  rw [tcs_code_ofCode]; revert x; decide

/-- The second field of `pop!` and `push!` is H and a base register (R466). -/
theorem base_slot (x : BitVec 4) : BitVec.ofBool x[3] ++ x.extractLsb' 0 3 = x := by revert x; decide

/-- The exponent of `subei!` stands below a one (R428). -/
theorem subei_slot {x : BitVec 5} (h : x[4] = true) : 0b1#1 ++ x.extractLsb' 0 4 = x := by revert x; decide

/-- The exponent of `addei!` stands below a zero (R427). -/
theorem addei_slot {x : BitVec 5} (h : ¬x[4] = true) : 0b0#1 ++ x.extractLsb' 0 4 = x := by revert x; decide

/-! ## What an opcode map answers encodes to the word that it was asked for (R170) -/

/-- `i` is a well-formed instruction and `e` is its pattern. -/
structure Instr.Encodes (i : Instr) (e : Effective) : Prop where
  wellFormed : i.wellFormed = true
  effective : i.effective = e

/-- The answer `o` of an opcode map to the word `e`, if any, is an instruction that encodes to that word. -/
structure Faithful (o : Option Instr) (e : Effective) : Prop where
  encodes : ∀ i, o = some i → i.Encodes e

theorem faithful_none (e : Effective) : Faithful none e := ⟨nofun⟩

theorem faithful_some {i : Instr} {e : Effective} : Faithful (some i) e ↔ i.Encodes e :=
  ⟨fun h => h.encodes i rfl, fun h => ⟨fun _ hi => Option.some.inj hi ▸ h⟩⟩

theorem faithful_row {fixed : Bool} {i : Instr} {e : Effective} :
    Faithful (row fixed i) e ↔ (fixed = true → i.Encodes e) := by
  cases fixed
  · exact ⟨fun _ => nofun, fun _ => faithful_none e⟩
  · exact faithful_some.trans ⟨fun h _ => h, fun h => h rfl⟩

/-! ### The 32-bit maps -/

section long

variable {m : BitVec 30}

theorem decodeSpecial_faithful (hop : m.extractLsb' 25 5 = 0b00000#5) : Faithful (decodeSpecial m) (.long m) := by
  by_cases hmid : m.extractLsb' 7 3 = 0b000#3
  case neg =>
    have hnone : decodeSpecial m = none := by simp [decodeSpecial, hmid]
    exact hnone ▸ faithful_none _
  obtain ⟨rd, ra, rb, func6, b0, rfl⟩ := exists_specialForm hop hmid
  obtain ⟨cu, rfl⟩ := exists_ofBool b0
  clear hop hmid
  simp only [decodeSpecial, specialForm_20_5, specialForm_15_5, specialForm_10_5, specialForm_10_15,
    specialForm_7_3, specialForm_1_6, BitVec.getLsbD_eq_getElem, Nat.reduceLT, specialForm_bit0, bit_ofBool,
    BitVec.ofNat_eq_ofNat, bne_self_eq_false, Bool.false_eq_true, if_false]
  -- by func6; then by LK of `br{cond}` and F of `mul`, and by the rB that tells the rows of 0x24 and 0x25 apart
  split
  any_goals split
  any_goals exact faithful_none _
  all_goals obtain rfl := eq_ofNat_of_toNat ‹func6.toNat = _›
  any_goals obtain rfl := eq_ofNat_of_toNat ‹rb.toNat = _›
  all_goals
    simp only [faithful_row, faithful_some, Bool.and_eq_true, beq_iff_eq, Bool.not_eq_eq_eq_not, Bool.not_true,
      Bool.not_eq_true, and_imp] at *
    intros
    subst_vars
  any_goals exact ⟨rfl, rfl⟩
  -- left are `syscall`, `mfsr` and `mtsr`, `cmp` and `cmpz`, and the instructions with a condition
  case h_2 => exact ⟨rfl, congrArg _ (specialImmForm_append ..)⟩
  case h_32 h | h_33 h => exact ⟨h, rfl⟩
  case h_11 h | h_12 h => exact ⟨rfl, congrArg (fun x => Effective.long (specialForm x ..)) (tcs_slot h)⟩
  all_goals exact ⟨rfl, congrArg (fun x => Effective.long (specialForm _ _ x ..)) (cond_slot ‹rb[4] = false›)⟩

theorem decodeImmediate_faithful (hop : m.extractLsb' 25 5 = 0b00001#5) :
    Faithful (decodeImmediate m) (.long m) := by
  obtain ⟨rd, func3, imm, b0, rfl⟩ := exists_iForm hop
  obtain ⟨cu, rfl⟩ := exists_ofBool b0
  simp only [decodeImmediate, iForm_20_5, iForm_17_3, iForm_1_16, BitVec.getLsbD_eq_getElem, Nat.reduceLT,
    iForm_bit0, bit_ofBool]
  split
  any_goals exact faithful_none _
  all_goals
    obtain rfl := eq_ofNat_of_toNat ‹func3.toNat = _›
    simp only [faithful_row, faithful_some, Bool.not_eq_eq_eq_not, Bool.not_true]
    intros
    subst_vars
    exact ⟨rfl, rfl⟩

theorem decodeUpperImmediate_faithful (hop : m.extractLsb' 25 5 = 0b00101#5) :
    Faithful (decodeUpperImmediate m) (.long m) := by
  obtain ⟨rd, func3, imm, b0, rfl⟩ := exists_iForm hop
  obtain ⟨cu, rfl⟩ := exists_ofBool b0
  simp only [decodeUpperImmediate, iForm_20_5, iForm_17_3, iForm_1_16, BitVec.getLsbD_eq_getElem, Nat.reduceLT,
    iForm_bit0, bit_ofBool]
  split
  any_goals exact faithful_none _
  all_goals
    obtain rfl := eq_ofNat_of_toNat ‹func3.toNat = _›
    simp only [faithful_row, faithful_some, Bool.not_eq_eq_eq_not, Bool.not_true]
    intros
    subst_vars
    exact ⟨rfl, rfl⟩

theorem decodePreIndex_encodes (hop : m.extractLsb' 25 5 = 0b00011#5) : (decodePreIndex m).Encodes (.long m) := by
  obtain ⟨rd, ra, imm, func3, rfl⟩ := exists_rixForm hop
  simp only [decodePreIndex, rixForm_20_5, rixForm_15_5, rixForm_3_12, rixForm_0_3]
  split
  case h_8 =>
    obtain rfl : func3 = 7#3 := by clear hop; revert func3; decide
    exact ⟨rfl, rfl⟩
  all_goals
    obtain rfl := eq_ofNat_of_toNat ‹func3.toNat = _›
    exact ⟨rfl, rfl⟩

theorem decodePostIndex_encodes (hop : m.extractLsb' 25 5 = 0b00111#5) : (decodePostIndex m).Encodes (.long m) := by
  obtain ⟨rd, ra, imm, func3, rfl⟩ := exists_rixForm hop
  simp only [decodePostIndex, rixForm_20_5, rixForm_15_5, rixForm_3_12, rixForm_0_3]
  split
  case h_8 =>
    obtain rfl : func3 = 7#3 := by clear hop; revert func3; decide
    exact ⟨rfl, rfl⟩
  all_goals
    obtain rfl := eq_ofNat_of_toNat ‹func3.toNat = _›
    exact ⟨rfl, rfl⟩

theorem decodeControl_faithful (hop : m.extractLsb' 25 5 = 0b00110#5) : Faithful (decodeControl m) (.long m) := by
  by_cases hmid : m.extractLsb' 8 7 = 0b0000000#7
  case neg =>
    have hnone : decodeControl m = none := by simp [decodeControl, hmid]
    exact hnone ▸ faithful_none _
  obtain ⟨rd, crn, crOp, rfl⟩ := exists_crForm hop hmid
  simp only [decodeControl, crForm_20_5, crForm_15_5, crForm_8_7, crForm_0_8, BitVec.ofNat_eq_ofNat,
    bne_self_eq_false, Bool.false_eq_true, if_false]
  split
  any_goals exact faithful_none _
  all_goals
    obtain rfl := eq_ofNat_of_toNat ‹crOp.toNat = _›
    simp only [faithful_row, faithful_some, Bool.and_eq_true, beq_iff_eq, and_imp]
    intros
    subst_vars
    exact ⟨rfl, rfl⟩

theorem decodeCoprocessor_faithful (hop : m.extractLsb' 25 5 = 0b00110#5)
    (hn : copDefined (m.extractLsb' 3 2) = true) : Faithful (decodeCoprocessor m) (.long m) := by
  obtain ⟨rd, cra, imm, n, subOp, rfl⟩ := exists_copMoveForm hop
  rw [copMoveForm_3_2] at hn
  simp only [decodeCoprocessor, copMoveForm_20_5, copMoveForm_15_5, copMoveForm_5_10, copMoveForm_3_2,
    copMoveForm_0_3]
  split
  any_goals exact faithful_none _
  all_goals
    obtain rfl := eq_ofNat_of_toNat ‹subOp.toNat = _›
    simp only [faithful_row, faithful_some, beq_iff_eq]
    intros
    subst_vars
  case h_5 =>
    rw [← copForm_append, copForm_5_20]
    exact ⟨hn, rfl⟩
  all_goals exact ⟨hn, rfl⟩

theorem decodeMac_faithful (hop : m.extractLsb' 25 5 = 0b11100#5) : Faithful (decodeMac m) (.long m) := by
  obtain ⟨rd, ra, rb, low, rfl⟩ := exists_macForm hop
  simp only [decodeMac, macForm_20_5, macForm_15_5, macForm_10_5, macForm_0_10]
  split
  any_goals exact faithful_none _
  all_goals
    obtain rfl := eq_ofNat_of_toNat ‹low.toNat = _›
    simp only [faithful_row, faithful_some, beq_iff_eq]
    intros
    subst_vars
    exact ⟨rfl, rfl⟩

/-- The 32-bit opcode map: a map of its own for the opcodes that have further opcode fields, the form itself for the others (R130). -/
theorem decode32_faithful (m : BitVec 30) : Faithful (decode32 m) (.long m) := by
  simp only [decode32]
  split
  any_goals exact faithful_none _
  all_goals have hop := eq_ofNat_of_toNat ‹(m.extractLsb' 25 5).toNat = _›
  case h_1 => exact decodeSpecial_faithful hop
  case h_2 => exact decodeImmediate_faithful hop
  case h_3 =>
    obtain ⟨disp, b0, rfl⟩ := exists_jForm hop
    obtain ⟨lk, rfl⟩ := exists_ofBool b0
    simp only [faithful_some, jForm_1_24, BitVec.getLsbD_eq_getElem, Nat.reduceLT, jForm_bit0, bit_ofBool]
    cases lk <;> exact ⟨rfl, rfl⟩
  case h_4 => exact faithful_some.2 (decodePreIndex_encodes hop)
  case h_5 =>
    obtain ⟨disp, bc, b0, rfl⟩ := exists_bcForm hop
    obtain ⟨lk, rfl⟩ := exists_ofBool b0
    simp only [faithful_row, bcForm_15_10, bcForm_10_5, bcForm_1_9, disp_parts, BitVec.getLsbD_eq_getElem,
      Nat.reduceLT, bcForm_bit0, bit_ofBool, Bool.not_eq_eq_eq_not, Bool.not_true]
    intro hcond
    have hslot := cond_slot hcond
    cases lk <;> exact ⟨rfl, congrArg (fun x => Effective.long (bcForm _ x _)) hslot⟩
  case h_6 => exact decodeUpperImmediate_faithful hop
  case h_7 =>
    split
    next => exact decodeControl_faithful hop
    next hn => exact decodeCoprocessor_faithful hop (by simpa [copDefined] using hn)
  case h_8 => exact faithful_some.2 (decodePostIndex_encodes hop)
  case h_9 | h_10 | h_11 =>
    obtain ⟨rd, ra, imm, b0, rfl⟩ := exists_riForm hop
    obtain ⟨cu, rfl⟩ := exists_ofBool b0
    simp only [faithful_some, riForm_20_5, riForm_15_5, riForm_1_14, BitVec.getLsbD_eq_getElem, Nat.reduceLT,
      riForm_bit0, bit_ofBool]
    exact ⟨rfl, rfl⟩
  case h_21 =>
    obtain ⟨usd1, ra, rb, usd2, func5, rfl⟩ := exists_ceForm hop
    simp only [faithful_some, ceForm_20_5, ceForm_15_5, ceForm_10_5, ceForm_5_5, ceForm_0_5]
    exact ⟨rfl, rfl⟩
  case h_22 => exact decodeMac_faithful hop
  all_goals
    obtain ⟨rd, ra, imm, rfl⟩ := exists_memoryForm hop
    simp only [faithful_some, memoryForm_20_5, memoryForm_15_5, memoryForm_0_15]
    exact ⟨rfl, rfl⟩

end long

/-! ### The 16-bit maps -/

section short

variable {h : BitVec 15}

theorem decode16Misc_faithful (hop : h.extractLsb' 12 3 = 0b000#3) : Faithful (decode16Misc h) (.short h) := by
  obtain ⟨rd, ra, func4, rfl⟩ := exists_rForm16 hop
  simp only [decode16Misc, rForm16_8_4, rForm16_4_4, rForm16_0_4]
  split
  any_goals exact faithful_none _
  all_goals
    obtain rfl := eq_ofNat_of_toNat ‹func4.toNat = _›
    simp only [faithful_row, faithful_some, Bool.and_eq_true, beq_iff_eq, and_imp]
    intros
    subst_vars
  any_goals exact ⟨rfl, rfl⟩
  all_goals exact ⟨rfl, congrArg (fun x => Effective.short (rForm16 _ x ..)) (code_ofCode _)⟩

theorem decode16Ce_faithful (hop : h.extractLsb' 12 3 = 0b001#3) : Faithful (decode16Ce h) (.short h) := by
  obtain ⟨ra, rb, func4, rfl⟩ := exists_rForm16 hop
  simp only [decode16Ce, rForm16_8_4, rForm16_4_4, rForm16_0_4]
  split
  case h_16 =>
    obtain rfl : func4 = 15#4 := by clear hop; revert func4; decide
    exact faithful_some.2 ⟨rfl, rfl⟩
  all_goals obtain rfl := eq_ofNat_of_toNat ‹func4.toNat = _›
  any_goals split
  all_goals
    simp only [faithful_row, faithful_some, beq_iff_eq] at *
    intros
    subst_vars
    exact ⟨rfl, rfl⟩

theorem decode16Alu_encodes (hop : h.extractLsb' 12 3 = 0b010#3) : (decode16Alu h).Encodes (.short h) := by
  obtain ⟨rd, ra, func4, rfl⟩ := exists_rForm16 hop
  simp only [decode16Alu, rForm16_8_4, rForm16_4_4, rForm16_0_4]
  split
  case h_16 =>
    obtain rfl : func4 = 15#4 := by clear hop; revert func4; decide
    exact ⟨rfl, rfl⟩
  all_goals obtain rfl := eq_ofNat_of_toNat ‹func4.toNat = _›
  any_goals exact ⟨rfl, rfl⟩
  all_goals exact ⟨rfl, congrArg (fun x => Effective.short (rForm16 _ _ x _)) (base_slot ra)⟩

theorem decode16Imm_faithful (hop : h.extractLsb' 12 3 = 0b110#3) : Faithful (decode16Imm h) (.short h) := by
  obtain ⟨rd, imm, func3, rfl⟩ := exists_iForm16 hop
  simp only [decode16Imm, iForm16_8_4, iForm16_3_5, iForm16_0_3, BitVec.getLsbD_eq_getElem, Nat.reduceLT]
  split
  any_goals exact faithful_none _
  all_goals
    obtain rfl := eq_ofNat_of_toNat ‹func3.toNat = _›
    simp only [faithful_row, faithful_some, beq_iff_eq]
  case h_1 =>
    split
    next hs => exact ⟨rfl, congrArg (fun x => Effective.short (iForm16 _ _ x _)) (subei_slot hs)⟩
    next hs => exact ⟨rfl, congrArg (fun x => Effective.short (iForm16 _ _ x _)) (addei_slot hs)⟩
  all_goals
    intros
    subst_vars
    exact ⟨rfl, rfl⟩

theorem decode16Base_faithful (hop : h.extractLsb' 12 3 = 0b111#3) : Faithful (decode16Base h) (.short h) := by
  obtain ⟨rd, imm, func3, rfl⟩ := exists_iForm16 hop
  simp only [decode16Base, iForm16_8_4, iForm16_3_5, iForm16_0_3]
  split
  any_goals exact faithful_none _
  all_goals
    obtain rfl := eq_ofNat_of_toNat ‹func3.toNat = _›
    exact faithful_some.2 ⟨rfl, rfl⟩

/-- The 16-bit opcode map (R140). -/
theorem decode16_faithful (h : BitVec 15) : Faithful (decode16 h) (.short h) := by
  simp only [decode16]
  split
  case h_8 =>
    have hlast : (h.extractLsb' 12 3).toNat = 7 := by
      have hlt := (h.extractLsb' 12 3).isLt
      simp only [imp_false] at *
      omega
    exact decode16Base_faithful (eq_ofNat_of_toNat hlast)
  all_goals have hop := eq_ofNat_of_toNat ‹(h.extractLsb' 12 3).toNat = _›
  case h_1 => exact decode16Misc_faithful hop
  case h_2 => exact decode16Ce_faithful hop
  case h_3 => exact faithful_some.2 (decode16Alu_encodes hop)
  case h_4 =>
    obtain ⟨disp, b0, rfl⟩ := exists_jForm16 hop
    obtain ⟨lk, rfl⟩ := exists_ofBool b0
    simp only [faithful_some, jForm16_1_11, BitVec.getLsbD_eq_getElem, Nat.reduceLT, jForm16_bit0, bit_ofBool]
    cases lk <;> exact ⟨rfl, rfl⟩
  case h_5 =>
    obtain ⟨rd, imm, rfl⟩ := exists_wideForm16 hop
    simp only [faithful_some, wideForm16_8_4, wideForm16_0_8]
    exact ⟨rfl, congrArg (fun x => Effective.short (wideForm16 _ x _)) (code_ofCode _)⟩
  case h_6 =>
    obtain ⟨rd, imm, rfl⟩ := exists_wideForm16 hop
    simp only [faithful_some, wideForm16_8_4, wideForm16_0_8]
    exact ⟨rfl, rfl⟩
  case h_7 => exact decode16Imm_faithful hop

end short


/-! ## The opcode maps on the patterns of the opcode table (R130 to R145) -/

/-- The instruction that the opcode map of its width has for an effective instruction. -/
def Effective.decoded : Effective → Option Instr
  | .long m => decode32 m
  | .short h => decode16 h

section patterns

theorem decode32_specialForm (rd ra rb : BitVec 5) (func6 : BitVec 6) (b0 : BitVec 1) :
    decode32 (specialForm rd ra rb func6 b0) = decodeSpecial (specialForm rd ra rb func6 b0) := by
  simp [decode32]

theorem decode32_crForm (rd crn : BitVec 5) {crOp : BitVec 8} (hcr : crOp.extractLsb' 3 2 = 0b00#2) :
    decode32 (crForm rd crn crOp) = decodeControl (crForm rd crn crOp) := by
  simp [decode32, hcr]

theorem decode32_copMoveForm (rd cra : BitVec 5) (imm : BitVec 10) {n : BitVec 2} (hn : copDefined n = true)
    (subOp : BitVec 3) :
    decode32 (copMoveForm rd cra imm n subOp) = decodeCoprocessor (copMoveForm rd cra imm n subOp) := by
  have hne : ¬n = 0#2 := by simpa [copDefined] using hn
  simp [decode32, hne]

theorem decode32_macForm (rd ra rb : BitVec 5) (low : BitVec 10) :
    decode32 (macForm rd ra rb low) = decodeMac (macForm rd ra rb low) := by
  simp [decode32]

variable {i : Instr}

theorem decoded_of_long {m : BitVec 30} (he : i.effective = .long m) (hd : decode32 m = some i) :
    i.effective.decoded = some i := he ▸ hd

theorem decoded_of_short {h : BitVec 15} (he : i.effective = .short h) (hd : decode16 h = some i) :
    i.effective.decoded = some i := he ▸ hd

end patterns

/-- The opcode map takes the pattern of a well-formed instruction back to the instruction. -/
theorem decoded_effective (i : Instr) (h : i.wellFormed = true) : i.effective.decoded = some i := by
  cases i with
  | nop | trapCond | sdbbp | brCond | brCondL | pflush | add | addc | sub | subc | cmp | cmpz | neg | and | or
    | not | xor | bittst | sll | srl | sra | ror | rol | rorc | rolc | mul | mulF | mulu | div | divu | mfcel | mfceh
    | mfcehl | mfcex0 | mtcel | mtceh | mtcehl | mtcex0 | tCond | mvCond | extsb | extsh | extzb | extzh | lcb | lcw
    | lce | scb | scw | sce | slli | srli | srai | rori | roli | roric | rolic =>
    exact decoded_of_long rfl (by simp [decode32_specialForm, decodeSpecial, row])
  | mfsr rd srn | mtsr ra srn =>
    have hsrn : srnDefined srn = true := h
    exact decoded_of_long rfl (by simp [decode32_specialForm, decodeSpecial, row, hsrn])
  | syscall => exact decoded_of_long rfl (by simp [decode32, decodeSpecial, row])
  | addi | cmpi | andi | ori | ldi => exact decoded_of_long rfl (by simp [decode32, decodeImmediate, row])
  | addis | andis | oris | ldis => exact decoded_of_long rfl (by simp [decode32, decodeUpperImmediate, row])
  | j | jl | bCond | bCondL | addri | andri | orri | lw | lh | lhu | lb | sw | sh | lbu | sb | cache | ceinst =>
    exact decoded_of_long rfl (by simp [decode32, row])
  | lwPre | lhPre | lhuPre | lbPre | swPre | shPre | lbuPre | sbPre =>
    exact decoded_of_long rfl (by simp [decode32, decodePreIndex])
  | lwPost | lhPost | lhuPost | lbPost | swPost | shPost | lbuPost | sbPost =>
    exact decoded_of_long rfl (by simp [decode32, decodePostIndex])
  | mtcr | mfcr | rte | drte | sleep =>
    exact decoded_of_long rfl ((decode32_crForm _ _ (by decide)).trans (by simp [decodeControl, row]))
  | mtc | mfc | ldc | stc | mtcc | mfcc =>
    exact decoded_of_long rfl ((decode32_copMoveForm _ _ _ h _).trans (by simp [decodeCoprocessor, row]))
  | cop n code =>
    have hn : ¬n = 0#2 := by simpa [Instr.wellFormed, copDefined] using h
    exact decoded_of_long rfl (by simp [decode32, decodeCoprocessor, hn])
  | mad | madu | madF | msb | msbu | msbF | mazl | mazlF | madl | madlFs | mszl | mszlF | msbl | msblFs | mazh
    | mazhF | madh | madhFs | mszh | mszhF | msbh | msbhFs | min | max | addS | subS | abs | absS | bitrev | clz
    | sllS => exact decoded_of_long rfl (by simp [decode32_macForm, decodeMac, row])
  | nop16 | mlfh16 | mhfl16 | mv16 | brCond16 | tCond16 | sll16 | addc16 | srl16 | sra16 =>
    exact decoded_of_short rfl (by simp [decode16, decode16Misc, row])
  | mtcel16 | mtceh16 | mfcel16 | mfceh16 | mulF16 | mulu16 | madF16 | madu16 | msbF16 | msbu16 | mazlF16 | mazhF16
    | madlFs16 | madhFs16 | mszlF16 | mszhF16 | msblFs16 | msbhFs16 =>
    exact decoded_of_short rfl (by simp [decode16, decode16Ce, row])
  | add16 | sub16 | neg16 | cmp16 | and16 | or16 | not16 | xor16 | lw16 | lh16 | pop16 | lbu16 | sw16 | sh16
    | push16 | sb16 => exact decoded_of_short rfl (by simp [decode16, decode16Alu])
  | j16 | jl16 | bCond16 | ldiu16 => exact decoded_of_short rfl (by simp [decode16])
  | addei16 | subei16 | slli16 | sdbbp16 | srli16 | bittst16 =>
    exact decoded_of_short rfl (by simp [decode16, decode16Imm, row])
  | lwp16 | lhp16 | lbup16 | swp16 | shp16 | sbp16 =>
    exact decoded_of_short rfl (by simp [decode16, decode16Base])

/-! ## Round trips (R83, R121, R123) -/

/-- The decoder on the bytes of an effective instruction of either width. -/
theorem decodeBytes_halves (littleEndian : Bool) (e : Effective) :
    decodeBytes littleEndian ((e.halves littleEndian).flatMap (bytesOfHalf littleEndian)) =
      (orReserved e.decoded).map (·, []) := by
  rw [← List.append_nil (List.flatMap ..)]
  cases e with
  | long m => exact decodeBytes_long littleEndian m []
  | short h => exact decodeBytes_short littleEndian h []

/-- Settles O1: the bytes are those of the pattern, and the opcode map takes the pattern back to the instruction. -/
theorem decodeInvertsEncode : Obligations.DecodeInvertsEncode := by
  unfold Obligations.DecodeInvertsEncode
  intro i littleEndian h
  rw [encodeBytes, encode, decodeBytes_halves, decoded_effective i h]
  rfl

/-- Whatever the opcode map of its width answers to an effective instruction encodes to it. -/
theorem decoded_faithful (e : Effective) : Faithful e.decoded e := by
  cases e with
  | long m => exact decode32_faithful m
  | short h => exact decode16_faithful h

/-- A half-word is its P bit and the fifteen bits below (R121). -/
theorem p_append_low (h : Half) : BitVec.ofBool (h.getLsbD 15) ++ h.extractLsb' 0 15 = h := by
  have hp : BitVec.ofBool (h.getLsbD 15) = h.extractLsb' 15 1 :=
    BitVec.eq_of_getLsbD_eq fun i hi => by simp [show i = 0 by omega]
  rw [hp, BitVec.extractLsb'_append_extractLsb'_eq_extractLsb' (by decide)]
  exact BitVec.extractLsb'_eq_self

theorem zero_append_low {h : Half} (hp : h.getLsbD 15 = false) : 0#1 ++ h.extractLsb' 0 15 = h := by
  have happend := p_append_low h
  rwa [hp] at happend

theorem one_append_low {h : Half} (hp : h.getLsbD 15 = true) : 1#1 ++ h.extractLsb' 0 15 = h := by
  have happend := p_append_low h
  rwa [hp] at happend

/-- The half-words of a 32-bit instruction whose P bits were 1. -/
theorem halves_long (littleEndian : Bool) {hi lo : Half} (hhi : hi.getLsbD 15 = true) (hlo : lo.getLsbD 15 = true) :
    (Effective.long (hi.extractLsb' 0 15 ++ lo.extractLsb' 0 15)).halves littleEndian =
      if littleEndian then [lo, hi] else [hi, lo] := by
  simp only [Effective.halves, BitVec.extractLsb'_append_eq_left, BitVec.extractLsb'_append_eq_right,
    one_append_low hhi, one_append_low hlo]

theorem halves_short (littleEndian : Bool) {h : Half} (hp : h.getLsbD 15 = false) :
    (Effective.short (h.extractLsb' 0 15)).halves littleEndian = [h] := by
  rw [Effective.halves, zero_append_low hp]

/-- The number of half-words of an effective instruction (R120). -/
def Effective.length : Effective → Nat
  | .long _ => 2
  | .short _ => 1

theorem size_eq (i : Instr) : i.size = 2 * i.effective.length := by cases i <;> rfl

theorem orReserved_eq_ok {o : Option Instr} {i : Instr} (h : orReserved o = .ok i) : o = some i := by
  cases o with
  | none => cases h
  | some j => exact congrArg some (Except.ok.inj h)

/-- What the decoder answers is what the opcode map has for the effective instruction that stands in the half-words. -/
theorem exists_effective_of_decode {littleEndian : Bool} {h0 h1 : Half} {i : Instr}
    (h : decode littleEndian h0 h1 = .ok i) :
    ∃ e : Effective, e.decoded = some i ∧ e.halves littleEndian = [h0, h1].take e.length := by
  unfold decode at h
  cases hp0 : h0.getLsbD 15 with
  | false =>
    simp only [hp0] at h
    exact ⟨.short (h0.extractLsb' 0 15), orReserved_eq_ok h, halves_short littleEndian hp0⟩
  | true =>
    cases hp1 : h1.getLsbD 15 with
    | false =>
      simp only [hp0, hp1] at h
      cases h
    | true =>
      cases littleEndian <;> simp only [hp0, hp1] at h
      · exact ⟨.long _, orReserved_eq_ok h, halves_long false hp0 hp1⟩
      · exact ⟨.long _, orReserved_eq_ok h, halves_long true hp1 hp0⟩

/-- Settles O2: the half-words hold an effective instruction, and what the opcode map answers to it encodes to it. -/
theorem encodeInvertsDecode : Obligations.EncodeInvertsDecode := by
  unfold Obligations.EncodeInvertsDecode
  intro littleEndian h0 h1 i h
  obtain ⟨e, hdecoded, hhalves⟩ := exists_effective_of_decode h
  obtain ⟨hwf, rfl⟩ := (decoded_faithful e).encodes i hdecoded
  refine ⟨hwf, ?_⟩
  rw [encode, hhalves, size_eq, Nat.mul_div_cancel_left _ two_pos]

end Sys2Proof

namespace Sys2Proof.Machine

/-! ## The step (R684) -/

theorem mapFault_none {s : State} {k : AccessKind} {a : Word} (h : s.memMap a k = .ok) : s.mapFault k a = none := by
  simp only [State.mapFault, h]

/-- The fetch at an even pc, with MemMap allowing every half-word that it reads, gives the instruction decoded there. -/
theorem fetched_of_decode {s : State} {i : Instr} (hpc : s.pc.getLsbD 0 = false) (hmap : s.memMap s.pc .fetch = .ok)
    (hmap2 : (s.half s.pc).getLsbD 15 = true → s.memMap (s.pc + 2) .fetch = .ok)
    (hdecode : decode s.cfg.littleEndian (s.half s.pc) (s.half (s.pc + 2)) = .ok i) : s.fetched = .instr i := by
  have hdecoded : s.decoded = .instr i := by simp only [State.decoded, hdecode]
  have hfirst : s.fetchFault s.pc = none := by
    simp only [State.fetchFault, hpc, Bool.false_eq_true, if_false, mapFault_none hmap]
  simp only [State.fetched, hfirst]
  split
  next hp =>
    simp only [mapFault_none (hmap2 hp), hdecoded]
  next => exact hdecoded

/-- Settles O4: no event is due and the processor is awake, so that the step is the fetch, and then the instruction. -/
theorem stepExecutesDecoded : Obligations.StepExecutesDecoded := by
  unfold Obligations.StepExecutesDecoded
  intro s i hevent hawake hpc hmap hmap2 hdecode
  have hfetched : s.tick.fetched = .instr i := fetched_of_decode (s := s.tick) hpc hmap hmap2 hdecode
  have hstep : step s = fetchExec s.tick := by
    rw [step, hevent]
    exact if_neg (Bool.not_eq_true _ ▸ hawake)
  rw [hstep, fetchExec, hfetched]
  rfl

end Sys2Proof.Machine
end

section
/-! PROOFS. Arithmetic and logic, 32 bits wide, with the compares, bit tests and moves of the 16-bit set (40_arith_logic_32.md). -/

namespace Sys2Proof

/-! ## Words of the opcode table (log 33) -/

/-- A word that lays out the half-words of a well-formed instruction decodes to it: the round trip through its bytes. -/
theorem decodeTableWord_of_encode {nbits w : Nat} {i : Instr} (hhalves : tableHalves false nbits w = encode false i)
    (hwf : i.wellFormed = true) : decodeTableWord nbits w = some i := by
  have hdecode : decodeBytes false (encodeBytes false i) = .ok (i, []) := decodeInvertsEncode i false hwf
  have hbytes : tableBytes false nbits w = encodeBytes false i := by rw [tableBytes, encodeBytes, hhalves]
  rw [decodeTableWord, hbytes, hdecode]

/-- Settles O3: each word is the encoding of its instruction. -/
theorem specWordsDecode : Obligations.SpecWordsDecode := by
  unfold Obligations.SpecWordsDecode
  refine ⟨?add, ?rorc, ?bCondL, ?swPre, ?scb, ?trapCond, ?cop, ?ceinst, ?madlFs, ?pop16, ?subei16, ?mszhF16⟩
  all_goals exact decodeTableWord_of_encode (by decide) rfl

end Sys2Proof

namespace Sys2Proof.Machine

/-! ## Flag updates that leave no flag UNDEFINED (R180, R190, R200) -/

@[simp] theorem nzOf_draws (r : Word) : (nzOf r).draws = false := by simp [FlagUpdate.draws, nzOf]

@[simp] theorem addFlags_draws (a b : Word) (c : Bool) : (addFlags a b c).draws = false := by
  simp [FlagUpdate.draws, addFlags, nzOf]

@[simp] theorem subFlags_draws (a b : Word) (c : Bool) : (subFlags a b c).draws = false := by
  simp [FlagUpdate.draws, subFlags, nzOf]

@[simp] theorem cmpFlags_draws (tcs : Tcs) (a b : Word) : (cmpFlags tcs a b).draws = false := by
  cases tcs <;> simp [FlagUpdate.draws, cmpFlags, tcsWrite, subFlags, nzOf]

@[simp] theorem bitTestFlags_draws (a : Word) (bn : BitVec 5) : (bitTestFlags a bn).draws = false := by
  simp [FlagUpdate.draws, bitTestFlags]

/-- N is the sign and Z the test for 0 of the result; C, V and T stay (R190). -/
theorem nzOf_flags (r : Word) (old free : Flags) :
    (nzOf r).flags old free = { old with n := decide (r.toInt < 0), z := decide (r.toNat = 0) } := by
  rw [← msb_eq_neg, ← beq_zero]
  rfl

theorem carryOf_eq (a b : Word) (c : Bool) :
    carryOf a b c = decide ((2 : Int) ^ 32 ≤ a.toNat + b.toNat + c.toNat) := by
  rw [carryOf, decide_eq_decide]
  omega

/-- The flags of an addition, over the exact unsigned and signed sums (R181, R182). -/
theorem addFlags_flags (a b : Word) (c : Bool) (old free : Flags) :
    (addFlags a b c).flags old free =
      { old with
        n := decide ((sum a b c).toInt < 0), z := decide ((sum a b c).toNat = 0)
        c := decide ((2 : Int) ^ 32 ≤ a.toNat + b.toNat + c.toNat)
        v := decide (a.toInt + b.toInt + c.toNat < -2 ^ 31 ∨ 2 ^ 31 - 1 < a.toInt + b.toInt + c.toNat) } := by
  rw [← msb_eq_neg, ← beq_zero, ← carryOf_eq, ← overflowOf_eq]
  rfl

/-- The flags of a subtraction, over the exact unsigned and signed differences (R186, R187). -/
theorem subFlags_flags (a b : Word) (c : Bool) (old free : Flags) :
    (subFlags a b c).flags old free =
      { old with
        n := decide ((difference a b c).toInt < 0), z := decide ((difference a b c).toNat = 0)
        c := decide (0 ≤ (a.toNat : Int) - b.toNat - (1 - c.toNat))
        v := decide
          (a.toInt - b.toInt - (1 - c.toNat) < -2 ^ 31 ∨ 2 ^ 31 - 1 < a.toInt - b.toInt - (1 - c.toNat)) } := by
  rw [← msb_eq_neg, ← beq_zero, ← noBorrow_eq, ← subOverflow_eq]
  rfl

/-- What TCS makes of T (R200). -/
theorem tcsWrite_apply (tcs : Tcs) (r : Word) (old free : Bool) :
    (tcsWrite tcs r).apply old free = if tcs = .teq then r == 0 else if tcs = .tmi then r.msb else old := by
  cases tcs <;> rfl

/-- Z of a compare. -/
theorem difference_beq_zero (a b : Word) : (difference a b true == 0) = decide (a.toNat = b.toNat) :=
  Bool.eq_iff_iff.2 (by rw [difference_beq_zero_iff, decide_eq_true_iff, BitVec.toNat_inj])

/-- The flags of a compare, over the orders and the signed difference of its operands (R200, R201). -/
theorem cmpFlags_flags (tcs : Tcs) (a b : Word) (old free : Flags) :
    (cmpFlags tcs a b).flags old free =
      { n := decide ((BitVec.ofInt 32 (a.toInt - b.toInt)).toInt < 0), z := decide (a.toNat = b.toNat)
        c := decide (b.toNat ≤ a.toNat)
        v := decide (a.toInt - b.toInt < -2 ^ 31 ∨ 2 ^ 31 - 1 < a.toInt - b.toInt)
        t := if tcs = .teq then decide (a.toNat = b.toNat)
          else if tcs = .tmi then decide ((BitVec.ofInt 32 (a.toInt - b.toInt)).toInt < 0) else old.t } := by
  have hc : noBorrow a b true = decide (b.toNat ≤ a.toNat) :=
    Bool.eq_iff_iff.2 (by rw [noBorrow_true_iff, decide_eq_true_iff])
  have hv := subOverflow_eq a b true
  rw [Bool.toNat_true, Nat.cast_one, sub_self, sub_zero] at hv
  rw [← hc, ← hv, ← difference_beq_zero, ← difference_eq_toInt, ← msb_eq_neg, ← tcsWrite_apply tcs _ old.t free.t]
  rfl

/-- The flags of a bit test (R203). -/
theorem bitTestFlags_flags (a : Word) (bn : BitVec 5) (old free : Flags) :
    (bitTestFlags a bn).flags old free =
      { old with n := decide (a.toInt < 0), z := decide (a.toNat / 2 ^ bn.toNat % 2 = 0) } := by
  rw [← msb_eq_neg, ← not_bit_eq]
  rfl

/-! ## Instructions that write a register and flags, or flags only -/

/-- A register write with flags under CU, where no flag becomes UNDEFINED: nothing else but pc changes (R206). -/
theorem computed_onCu {u : FlagUpdate} (hu : u.draws = false) (s : State) (rd : Reg) (r : Word) (cu : Bool)
    (len : Word) :
    s.computed rd r (onCu cu u) len =
      { s.setReg rd r with
        flags := if cu then u.flags s.flags (Config.freeFlags s.free) else s.flags
        pc := s.pc + len } := by
  cases cu
  case false => rfl
  case true => rw [State.computed, onCu_true, putFlags_drawn hu]; rfl

/-- A write of flags only, where no flag becomes UNDEFINED. -/
theorem tested_drawn {u : FlagUpdate} (hu : u.draws = false) (s : State) (len : Word) :
    s.tested u len = { s with flags := u.flags s.flags (Config.freeFlags s.free), pc := s.pc + len } := by
  rw [State.tested, putFlags_drawn hu]
  rfl

/-- Settles O19: every addition is one sum of its two operands and a carry, with the flags of that sum. -/
theorem additions : Obligations.Additions := by
  unfold Obligations.Additions
  intro s rd ra rb imm16 imm14 cu result
  have hresult (a b : Word) (c : Bool) :
      s.computed rd (sum a b c) (onCu cu (addFlags a b c)) 4 = result a b c := by
    rw [computed_onCu (addFlags_draws a b c), addFlags_flags, sum_eq]
  have hexec {a b b' : Word} {c : Bool} (hb : b = b') :
      (.next (s.computed rd (sum a b c) (onCu cu (addFlags a b c)) 4) : Result) = .next (result a b' c) := by
    rw [hresult, hb]
  exact ⟨hexec rfl, hexec rfl, hexec (sext_eq imm16), hexec (upper_eq imm16), hexec (sext_eq imm14),
    rfl, rfl, rfl, rfl, rfl⟩

/-- Settles O20: every subtraction is one difference of its two operands and a borrow, with the flags of that difference. -/
theorem subtractions : Obligations.Subtractions := by
  unfold Obligations.Subtractions
  intro s rd ra rb cu result
  have hresult (a b : Word) (c : Bool) :
      s.computed rd (difference a b c) (onCu cu (subFlags a b c)) 4 = result a b c := by
    rw [computed_onCu (subFlags_draws a b c), subFlags_flags, difference_eq]
  have hexec (a b : Word) (c : Bool) :
      (.next (s.computed rd (difference a b c) (onCu cu (subFlags a b c)) 4) : Result) = .next (result a b c) :=
    congrArg _ (hresult a b c)
  exact ⟨hexec _ _ _, hexec _ _ _, hexec _ _ _, rfl, rfl, rfl⟩

/-- Settles O21: every compare writes the flags of `cmpFlags` and nothing else; the forms without TCS are the plain compare. -/
theorem compares : Obligations.Compares := by
  unfold Obligations.Compares
  intro s tcs ra rb rd imm rd16 ra16 result
  have hexec (tcs : Tcs) (a b len : Word) :
      (.next (s.tested (cmpFlags tcs a b) len) : Result) = .next (result tcs a b len) := by
    rw [tested_drawn (cmpFlags_draws tcs a b), cmpFlags_flags]
  exact ⟨hexec tcs _ _ 4, hexec tcs _ _ 4, hexec .plain _ _ 4, hexec .plain _ _ 2⟩

/-- Settles O24: every logical instruction writes one result with its N and Z; the immediate operands are their numbers. -/
theorem logic : Obligations.Logic := by
  unfold Obligations.Logic
  intro s rd ra rb imm16 imm14 cu result low high imm
  have hexec {r r' : Word} (hr : r = r') :
      (.next (s.computed rd r (onCu cu (nzOf r)) 4) : Result) = .next (result r') := by
    rw [computed_onCu (nzOf_draws r), nzOf_flags, hr]
  have hlow : zext imm16 = low := zext_eq imm16
  have hhigh : upper imm16 = high := upper_eq imm16
  have himm : zext imm14 = imm := zext_eq imm14
  refine ⟨hexec rfl, hexec rfl, hexec rfl, hexec rfl,
    hexec (congrArg (s.reg rd &&& ·) hlow), hexec (congrArg (s.reg rd ||| ·) hlow),
    hexec (congrArg (s.reg rd &&& ·) hhigh), hexec (congrArg (s.reg rd ||| ·) hhigh),
    hexec (congrArg (s.reg ra &&& ·) himm), hexec (congrArg (s.reg ra ||| ·) himm), ?special, ?immediate, rfl, rfl⟩
  all_goals
    simp only [List.forall_mem_cons]
    exact ⟨rfl, rfl, rfl, rfl, List.forall_mem_nil _⟩

/-- Settles O25: a bit test writes flags only, a load or move one register only; a 4-bit field names a register of its half of the file. -/
theorem bitTestsAndMoves : Obligations.BitTestsAndMoves := by
  unfold Obligations.BitTestsAndMoves
  intro s rd ra bn imm d a imm8 tested low high
  have htested (v len : Word) : (.next (s.tested (bitTestFlags v bn) len) : Result) = .next (tested v len) := by
    rw [tested_drawn (bitTestFlags_draws v bn), bitTestFlags_flags]
  have hmoved {r r' : Reg} {v v' : Word} (len : Word) (hr : r = r') (hv : v = v') :
      (.next ((s.setReg r v).advance len) : Result) = .next { s.setReg r' v' with pc := s.pc + len } := by
    rw [hr, hv]
    rfl
  have hlow (r : G0) : g0 r = low r := g0_eq r
  have hhigh (r : G0) : g1 r = high r := g1_eq r
  refine ⟨htested (s.reg ra) 4, ?bittst16, hmoved 4 rfl (sext_eq imm), hmoved 4 rfl (upper_eq imm),
    hmoved 2 (hlow d) (zext_eq imm8), hmoved 2 (hlow d) (congrArg s.reg (hlow a)),
    hmoved 2 (hlow d) (congrArg s.reg (hhigh a)), hmoved 2 (hhigh d) (congrArg s.reg (hlow a))⟩
  case bittst16 => exact hlow d ▸ htested (s.reg (g0 d)) 2

end Sys2Proof.Machine
end

section
/-! PROOFS. Shifts, rotates and extends, 32 bits wide (41_shift_rotate_extend_32.md). -/

namespace Sys2Proof.Machine

/-! ## The shifts as numbers (R230 to R236) -/

section shifts

variable (a : Word) {n : BitVec 5} {k : Nat} (hk : n.toNat = k)
include hk

theorem shiftLeft_eq : shiftLeft a n = BitVec.ofNat 32 (a.toNat * 2 ^ k) := by
  apply BitVec.eq_of_toNat_eq
  rw [shiftLeft, hk, BitVec.toNat_shiftLeft, Nat.shiftLeft_eq, BitVec.toNat_ofNat]

theorem shiftRight_eq : shiftRight a n = BitVec.ofNat 32 (a.toNat / 2 ^ k) := by
  apply BitVec.eq_of_toNat_eq
  have hlt : a.toNat / 2 ^ k < 2 ^ 32 := (Nat.div_le_self _ _).trans_lt a.isLt
  rw [shiftRight, hk, BitVec.toNat_ushiftRight, Nat.shiftRight_eq_div_pow, BitVec.toNat_ofNat, Nat.mod_eq_of_lt hlt]

theorem shiftRightArith_eq : shiftRightArith a n = BitVec.ofInt 32 (a.toInt / 2 ^ k) := by
  rw [shiftRightArith, hk, BitVec.sshiftRight, Int.shiftRight_eq_div_pow, Nat.cast_pow, Nat.cast_ofNat]

theorem leftCarry_eq : leftCarry a n = if k = 0 then none else some (a.getLsbD (32 - k)) := by
  subst hk
  simp only [leftCarry, ← BitVec.toNat_inj, BitVec.ofNat_eq_ofNat, BitVec.toNat_ofNat, Nat.zero_mod]

theorem rightCarry_eq : rightCarry a n = if k = 0 then none else some (a.getLsbD (k - 1)) := by
  subst hk
  simp only [rightCarry, ← BitVec.toNat_inj, BitVec.ofNat_eq_ofNat, BitVec.toNat_ofNat, Nat.zero_mod]

end shifts

/-! ## The rotates, bit by bit (R238 to R245) -/

section bits

variable {w n j : Nat} (x : BitVec w)

/-- A rotation to the left takes each bit from `n` places below, around the end. -/
theorem getLsbD_rotateLeft_mod (hn : n < w) (hj : j < w) :
    (x.rotateLeft n).getLsbD j = x.getLsbD ((j + w - n) % w) := by
  rw [BitVec.getLsbD_rotateLeft, Nat.mod_eq_of_lt hn]
  by_cases h : j < n
  · rw [Nat.mod_eq_of_lt (by omega), decide_eq_true h, cond_true]
    congr 1
    omega
  · rw [show j + w - n = j - n + w by omega, Nat.add_mod_right, Nat.mod_eq_of_lt (by omega)]
    simp [h, hj]

/-- A rotation to the right takes each bit from `n` places above, around the end. -/
theorem getLsbD_rotateRight_mod (hn : n < w) (hj : j < w) :
    (x.rotateRight n).getLsbD j = x.getLsbD ((j + n) % w) := by
  rw [BitVec.getLsbD_rotateRight, Nat.mod_eq_of_lt hn]
  by_cases h : j < w - n
  · rw [Nat.mod_eq_of_lt (by omega), decide_eq_true h, cond_true, Nat.add_comm]
  · rw [show j + n = j - (w - n) + w by omega, Nat.add_mod_right, Nat.mod_eq_of_lt (by omega)]
    simp [h, hj]

theorem rotateLeft_rotateRight (hn : n < w) : (x.rotateRight n).rotateLeft n = x := by
  apply BitVec.eq_of_getLsbD_eq
  intro j hj
  have hsource : (j + w - n) % w < w := Nat.mod_lt _ (by omega)
  rw [getLsbD_rotateLeft_mod _ hn hj, getLsbD_rotateRight_mod _ hn hsource, Nat.mod_add_mod,
    Nat.sub_add_cancel (by omega), Nat.add_mod_right, Nat.mod_eq_of_lt hj]

end bits

section rotates

variable (a : Word) (c : Bool) {n : BitVec 5} {j k : Nat} (hk : n.toNat = k)
include hk

theorem rotateLeft_getLsbD (hj : j < 32) : (rotateLeft a n).getLsbD j = a.getLsbD ((j + 32 - k) % 32) :=
  hk ▸ getLsbD_rotateLeft_mod a n.isLt hj

theorem rotateRight_getLsbD (hj : j < 32) : (rotateRight a n).getLsbD j = a.getLsbD ((j + k) % 32) :=
  hk ▸ getLsbD_rotateRight_mod a n.isLt hj

theorem chainLeft_getLsbD (hj : j < 33) :
    (chainLeft c a n).getLsbD j = (carryChain c a).getLsbD ((j + 33 - k) % 33) :=
  hk ▸ getLsbD_rotateLeft_mod (carryChain c a) (n.isLt.trans (by decide)) hj

theorem chainRight_getLsbD (hj : j < 33) :
    (chainRight c a n).getLsbD j = (carryChain c a).getLsbD ((j + k) % 33) :=
  hk ▸ getLsbD_rotateRight_mod (carryChain c a) (n.isLt.trans (by decide)) hj

/-- The bit that leaves at the left is the one that a rotation brings in at the right (R238). -/
theorem leftCarry_eq_rotateLeft (hpos : 0 < k) : leftCarry a n = some ((rotateLeft a n).getLsbD 0) := by
  rw [leftCarry_eq a hk, if_neg hpos.ne', rotateLeft_getLsbD a hk (by decide), Nat.zero_add, Nat.mod_eq_of_lt (by omega)]

/-- The bit that leaves at the right is the one that a rotation brings in at the left (R240). -/
theorem rightCarry_eq_rotateRight (hpos : 0 < k) : rightCarry a n = some ((rotateRight a n).getLsbD 31) := by
  have hlt : k < 32 := hk ▸ n.isLt
  rw [rightCarry_eq a hk, if_neg hpos.ne', rotateRight_getLsbD a hk (by decide),
    show 31 + k = k - 1 + 32 by omega, Nat.add_mod_right, Nat.mod_eq_of_lt (by omega)]

end rotates

/-! ## The chain of the carry rotates (R242) -/

theorem carryChain_getLsbD (c : Bool) (a : Word) {j : Nat} (hj : j < 33) :
    (carryChain c a).getLsbD j = if j = 32 then c else a.getLsbD j := by
  rw [carryChain, BitVec.getLsbD_append]
  by_cases h : j = 32
  · subst h
    simp
  · rw [if_neg h, if_pos (show j < 32 by omega)]

/-- The chain is the chain of its own bit 32 and its low word. -/
theorem carryChain_parts (y : BitVec 33) : carryChain (y.getLsbD 32) (y.extractLsb' 0 32) = y := by
  apply BitVec.eq_of_getLsbD_eq
  intro j hj
  rw [carryChain_getLsbD _ _ hj]
  split
  case isTrue h => rw [h]
  case isFalse h => simp [show j < 32 by omega]

theorem carryChain_getLsbD_32 (c : Bool) (a : Word) : (carryChain c a).getLsbD 32 = c :=
  carryChain_getLsbD c a (by decide)

theorem carryChain_extractLsb' (c : Bool) (a : Word) : (carryChain c a).extractLsb' 0 32 = a := by
  apply BitVec.eq_of_getLsbD_eq
  intro j hj
  rw [BitVec.getLsbD_extractLsb', Nat.zero_add, carryChain_getLsbD c a (by omega), if_neg (by omega)]
  simp [hj]

/-- The rotation to the left undoes the one to the right, on the chain put together again from its parts. -/
theorem chainLeft_chainRight (c : Bool) (a : Word) (n : BitVec 5) :
    chainLeft ((chainRight c a n).getLsbD 32) ((chainRight c a n).extractLsb' 0 32) n = carryChain c a := by
  rw [chainLeft, carryChain_parts, chainRight, rotateLeft_rotateRight _ (n.isLt.trans (by decide))]

/-! ## The extends as numbers (R246 to R249) -/

/-- The signed value of the low `w` bits is the value modulo `2 ^ w`, taken into the signed range. -/
theorem toInt_extractLsb'_zero (a : Word) {w : Nat} (hw : w ≤ 32) :
    (a.extractLsb' 0 w).toInt = a.toInt.bmod (2 ^ w) := by
  rw [BitVec.toInt_extractLsb', Nat.shiftRight_zero, BitVec.toInt_eq_toNat_bmod a,
    Int.bmod_bmod_of_dvd (Nat.pow_dvd_pow 2 hw)]

/-- The balanced remainder modulo twice `p` is the remainder of the value moved up by `p`, moved down again. -/
theorem bmod_two_mul (x : Int) {p : Nat} (hp : 0 < p) : x.bmod (2 * p) = (x + p) % (2 * p) - p := by
  have hnonneg : 0 ≤ x % (2 * p) := Int.emod_nonneg x (by omega)
  have hlt : x % (2 * p) < 2 * p := Int.emod_lt_of_pos x (by omega)
  rw [Int.bmod_def, ← Int.emod_add_emod]
  push_cast
  split
  case isTrue h => rw [Int.emod_eq_of_lt (a := x % (2 * p) + p) (by omega) (by omega), Int.add_sub_cancel]
  case isFalse h =>
    rw [show x % (2 * p) + p = x % (2 * p) - p + 2 * p by ring, Int.add_emod_right,
      Int.emod_eq_of_lt (a := x % (2 * p) - p) (by omega) (by omega)]
    ring

/-- The sign extension of the low `w + 1` bits. -/
theorem signExtend_low (a : Word) {w : Nat} (hw : w < 32) :
    (a.extractLsb' 0 (w + 1)).signExtend 32 = BitVec.ofInt 32 ((a.toInt + 2 ^ w) % 2 ^ (w + 1) - 2 ^ w) := by
  have hbmod := bmod_two_mul a.toInt (Nat.two_pow_pos w)
  rw [BitVec.signExtend, toInt_extractLsb'_zero a hw, Nat.pow_succ', hbmod, pow_succ' (2 : Int), Nat.cast_pow,
    Nat.cast_ofNat]

theorem setWidth_low (a : Word) (w : Nat) :
    (a.extractLsb' 0 w).setWidth 32 = BitVec.ofNat 32 (a.toNat % 2 ^ w) := by
  have h : zext (a.extractLsb' 0 w) = BitVec.ofNat 32 (a.extractLsb' 0 w).toNat := zext_eq _
  rw [BitVec.extractLsb'_toNat, Nat.shiftRight_zero] at h
  exact h

/-! ## Flag updates that may leave a flag UNDEFINED (R236, R250) -/

theorem carryWrite_apply (carry : Option Bool) (old free : Bool) :
    (carryWrite carry).apply old free = carry.getD free := by
  cases carry <;> rfl

/-- The flags of a shift: C is the bit shifted out, or free where there is none. -/
theorem shiftFlags_flags (r : Word) (carry : Option Bool) (old free : Flags) :
    (shiftFlags r carry).flags old free =
      { old with n := decide (r.toInt < 0), z := decide (r.toNat = 0), c := carry.getD free.c } := by
  rw [← msb_eq_neg, ← beq_zero, ← carryWrite_apply carry old.c]
  rfl

/-- The flags of a plain rotate: N and Z are free, C is the bit rotated, or free where there is none. -/
theorem rotateFlags_flags (carry : Option Bool) (old free : Flags) :
    (rotateFlags carry).flags old free = { old with n := free.n, z := free.z, c := carry.getD free.c } := by
  rw [← carryWrite_apply carry old.c]
  rfl

/-- The flags of a carry rotate: N is the sign of the low word of the chain, C its bit 32. -/
theorem chainFlags_flags (y : BitVec 33) (old free : Flags) :
    (chainFlags y).flags old free =
      { old with n := decide ((y.extractLsb' 0 32).toInt < 0), c := y.getLsbD 32 } := by
  have hsign : (y.extractLsb' 0 32).msb = y.getLsbD 31 := by simp [BitVec.msb_eq_getLsbD_last]
  rw [← msb_eq_neg, hsign]
  rfl

/-- The flags of an extend: N is the sign of the result, Z is free. -/
theorem extendFlags_flags (r : Word) (old free : Flags) :
    (extendFlags r).flags old free = { old with n := decide (r.toInt < 0), z := free.z } := by
  rw [← msb_eq_neg]
  rfl

/-! ## The instructions -/

/-- A register write with flags under CU, where a flag may become UNDEFINED: nothing else but pc and the free values drawn changes (R206, log 10). -/
theorem computed_onCu_draws (s : State) (rd : Reg) (r : Word) (cu : Bool) (u : FlagUpdate) (len : Word) :
    ∃ k, s.computed rd r (onCu cu u) len =
      { s.setReg rd r with
        flags := if cu then u.flags s.flags (Config.freeFlags s.free) else s.flags
        pc := s.pc + len, free := k } := by
  refine ⟨(s.putFlags (onCu cu u)).free, ?_⟩
  cases cu
  case false => rfl
  case true => rfl

/-- What a carry rotate does with the rotated chain: its low word to the register, its bit 32 to C (R242, R250). -/
def State.chainWritten (s : State) (rd : Reg) (y : BitVec 33) : State :=
  s.computed rd (y.extractLsb' 0 32) (chainFlags y) 4

/-- A carry rotate leaves nothing UNDEFINED. -/
theorem chainWritten_eq (s : State) (rd : Reg) (y : BitVec 33) :
    s.chainWritten rd y =
      { s.setReg rd (y.extractLsb' 0 32) with
        flags := { s.flags with n := decide ((y.extractLsb' 0 32).toInt < 0), c := y.getLsbD 32 }
        pc := s.pc + 4 } := by
  have hdraws : (chainFlags y).draws = false := by simp [FlagUpdate.draws, chainFlags]
  rw [State.chainWritten, State.computed, putFlags_drawn hdraws, chainFlags_flags]
  rfl

@[simp] theorem chainWritten_reg (s : State) (rd q : Reg) (y : BitVec 33) :
    (s.chainWritten rd y).reg q = if q = rd then y.extractLsb' 0 32 else s.reg q := reg_setReg s rd q _

@[simp] theorem chainWritten_c (s : State) (rd : Reg) (y : BitVec 33) :
    (s.chainWritten rd y).flags.c = y.getLsbD 32 := rfl

@[simp] theorem chainWritten_z (s : State) (rd : Reg) (y : BitVec 33) :
    (s.chainWritten rd y).flags.z = s.flags.z := rfl

theorem exec_roric (s : State) (rd ra : Reg) (sa : BitVec 5) :
    exec (.roric rd ra sa) s = .next (s.chainWritten rd (chainRight s.flags.c (s.reg ra) sa)) := rfl

theorem exec_rolic (s : State) (rd ra : Reg) (sa : BitVec 5) :
    exec (.rolic rd ra sa) s = .next (s.chainWritten rd (chainLeft s.flags.c (s.reg ra) sa)) := rfl

/-- `rolic.c` after `roric.c` writes the chain that there was before both. -/
theorem exec_rolic_chainWritten (s : State) (rd ra : Reg) (sa : BitVec 5) :
    exec (.rolic rd rd sa) (s.chainWritten rd (chainRight s.flags.c (s.reg ra) sa)) =
      .next ((s.chainWritten rd (chainRight s.flags.c (s.reg ra) sa)).chainWritten rd
        (carryChain s.flags.c (s.reg ra))) := by
  rw [exec_rolic, chainWritten_c, chainWritten_reg, if_pos rfl, chainLeft_chainRight]

/-- Settles O26: every shift writes its result with N and Z of it, and as C the bit that the amount shifts out. -/
theorem shifts : Obligations.Shifts := by
  unfold Obligations.Shifts
  intro s rd ra rb sa cu a m does left right
  have hdoes {i : Instr} {r r' : Word} {carry out : Option Bool}
      (hexec : exec i s = .next (s.computed rd r (onCu cu (shiftFlags r carry)) 4))
      (hr : r = r') (hcarry : carry = out) : does i r' out := by
    subst hr hcarry
    obtain ⟨k, hk⟩ := computed_onCu_draws s rd r cu (shiftFlags r carry) 4
    exact ⟨(Config.freeFlags s.free).c, k, by rw [hexec, hk, shiftFlags_flags]⟩
  have hm : (amount (s.reg rb)).toNat = m := amount_toNat (s.reg rb)
  exact ⟨hdoes rfl (shiftLeft_eq a hm) (leftCarry_eq a hm), hdoes rfl (shiftLeft_eq a rfl) (leftCarry_eq a rfl),
    hdoes rfl (shiftRight_eq a hm) (rightCarry_eq a hm), hdoes rfl (shiftRight_eq a rfl) (rightCarry_eq a rfl),
    hdoes rfl (shiftRightArith_eq a hm) (rightCarry_eq a hm),
    hdoes rfl (shiftRightArith_eq a rfl) (rightCarry_eq a rfl)⟩

/-- Settles O27: a rotation moves every bit around the end, and its carry is the bit that came around last. -/
theorem plainRotates : Obligations.PlainRotates := by
  unfold Obligations.PlainRotates
  intro s rd ra rb sa cu a m does
  have hdoes {i : Instr} {r : Word} {carry : Option Bool} {n : Nat} {source : Nat → Nat} {out : Nat}
      (hexec : exec i s = .next (s.computed rd r (onCu cu (rotateFlags carry)) 4))
      (hbits : ∀ j < 32, r.getLsbD j = a.getLsbD (source j % 32))
      (hcarry : 0 < n → carry = some (r.getLsbD out)) : does i n source out := by
    obtain ⟨k, hk⟩ := computed_onCu_draws s rd r cu (rotateFlags carry) 4
    refine ⟨r, (Config.freeFlags s.free).n, (Config.freeFlags s.free).z, carry.getD (Config.freeFlags s.free).c, k,
      hbits, fun hpos => ?c, ?next⟩
    case c => rw [hcarry hpos, Option.getD_some]
    case next => rw [hexec, hk, rotateFlags_flags]
  have hm : (amount (s.reg rb)).toNat = m := amount_toNat (s.reg rb)
  exact ⟨hdoes rfl (fun _ => rotateLeft_getLsbD a hm) (leftCarry_eq_rotateLeft a hm),
    hdoes rfl (fun _ => rotateLeft_getLsbD a rfl) (leftCarry_eq_rotateLeft a rfl),
    hdoes rfl (fun _ => rotateRight_getLsbD a hm) (rightCarry_eq_rotateRight a hm),
    hdoes rfl (fun _ => rotateRight_getLsbD a rfl) (rightCarry_eq_rotateRight a rfl)⟩

/-- Settles O28: C and the register after a carry rotate are the two parts of the rotated chain. -/
theorem carryRotates : Obligations.CarryRotates := by
  unfold Obligations.CarryRotates
  intro s rd ra rb sa m chain does
  have hchain (c : Bool) (v : Word) {j : Nat} (hj : j < 33) : chain c v j = (carryChain c v).getLsbD j :=
    (carryChain_getLsbD c v hj).symm
  have hdoes {i : Instr} {y : BitVec 33} {source : Nat → Nat}
      (hexec : exec i s = .next (s.chainWritten rd y))
      (hbits : ∀ j < 33, y.getLsbD j = (carryChain s.flags.c (s.reg ra)).getLsbD (source j % 33)) :
      does i source := by
    refine ⟨y.extractLsb' 0 32, y.getLsbD 32, fun j hj => ?bits, ?next⟩
    case bits => rw [hchain _ _ hj, carryChain_parts, hchain _ _ (Nat.mod_lt _ (by decide)), hbits j hj]
    case next => rw [hexec, chainWritten_eq]
  have hm : (amount (s.reg rb)).toNat = m := amount_toNat (s.reg rb)
  exact ⟨hdoes rfl fun _ => chainRight_getLsbD _ _ hm, hdoes rfl fun _ => chainRight_getLsbD _ _ rfl,
    hdoes rfl fun _ => chainLeft_getLsbD _ _ hm, hdoes rfl fun _ => chainLeft_getLsbD _ _ rfl⟩

/-- Settles O29: `rolic.c` puts the chain together again from what `roric.c` wrote, and rotates it back. -/
theorem carryRotatesCancel : Obligations.CarryRotatesCancel := by
  unfold Obligations.CarryRotatesCancel
  intro s rd ra sa
  refine ⟨_, _, exec_roric s rd ra sa, exec_rolic_chainWritten s rd ra sa, ?register, ?carry, rfl, fun q hq => ?frame⟩
  case register => rw [chainWritten_reg, if_pos rfl, carryChain_extractLsb']
  case carry => rw [chainWritten_c, carryChain_getLsbD_32]
  case frame => rw [chainWritten_reg, if_neg hq, chainWritten_reg, if_neg hq]

/-- Settles O30: every extend writes its number with N of it; Z is free where CU is 1. -/
theorem extendsHold : Obligations.Extends := by
  unfold Obligations.Extends
  intro s rd ra cu a does
  have hdoes {i : Instr} {r r' : Word}
      (hexec : exec i s = .next (s.computed rd r (onCu cu (extendFlags r)) 4)) (hr : r = r') : does i r' := by
    subst hr
    obtain ⟨k, hk⟩ := computed_onCu_draws s rd r cu (extendFlags r) 4
    exact ⟨(Config.freeFlags s.free).z, k, by rw [hexec, hk, extendFlags_flags]⟩
  exact ⟨hdoes rfl (signExtend_low a (w := 7) (by decide)), hdoes rfl (signExtend_low a (w := 15) (by decide)),
    hdoes rfl (setWidth_low a 8), hdoes rfl (setWidth_low a 16)⟩

end Sys2Proof.Machine
end

section
/-! PROOFS. Branches, jumps, the conditional move and the T flag, with their 16-bit forms (42_branch_jump_32.md). -/

namespace Sys2Proof.Machine

/-- An instruction that completes, by the state that it completes in. -/
theorem next_of_eq {t u : State} (h : t = u) : (.next t : Result) = .next u := congrArg _ h

/-! ## The branches on the flags (R274 to R277) -/

/-- A branch on any condition but CNZ leaves CNT alone: it writes pc only (R34). -/
theorem branched_of_ne_cnz {c : Cond} (hc : c ≠ .cnz) (s : State) (target len : Word) :
    s.branched c target len = { s with pc := if s.holds c then target else s.pc + len } := by
  simp only [State.branched, State.countAfter, if_neg hc]

/-- Settles O31: every branch is `State.branched` at its own target; the link is written after it, taken or not, and touches r3 only. -/
theorem branches : Obligations.Branches := by
  unfold Obligations.Branches
  intro s c ra d19 d8 a hc goes linked
  have hgoes (target len : Word) : s.branched c target len = { s with pc := goes target len } :=
    branched_of_ne_cnz hc s target len
  have hnear {w : Nat} (d : BitVec w) (len : Word) :
      s.branched c (branchTarget s.pc d) len = { s with pc := goes (s.pc + BitVec.ofInt 32 (2 * d.toInt)) len } := by
    rw [hgoes, branchTarget_eq]
  have hlink {t : State} {target : Word} (h : t = { s with pc := target }) :
      (.next (t.linked (s.pc + 4)) : Result) = .next { linked with pc := target } := by
    rw [h]
    rfl
  exact ⟨next_of_eq (hnear d19 4), hlink (hnear d19 4), next_of_eq (hgoes (s.reg ra) 4), hlink (hgoes (s.reg ra) 4),
    next_of_eq (hnear d8 2), next_of_eq (hgoes (s.reg (g0 a)) 2)⟩

/-! ## The jumps (R278, R457, R458) -/

/-- Settles O33: the two targets as numbers; the link is the address behind the jump, read before pc is written. -/
theorem jumps : Obligations.Jumps := by
  unfold Obligations.Jumps
  intro s d24 d11 far near
  have hfar : jumpTarget s.pc d24 = far := jumpTarget_eq s.pc d24
  have hnear : jumpTarget16 s.pc d11 = near := jumpTarget16_eq s.pc d11
  have hjump {x y : Word} (h : x = y) : (.next { s with pc := x } : Result) = .next { s with pc := y } := by rw [h]
  have hlink {x y : Word} (h : x = y) (link : Word) :
      (.next ({ s with pc := x }.linked link) : Result) = .next { s.setReg 3 link with pc := y } := by
    rw [h]
    rfl
  exact ⟨hjump hfar, hlink hfar (s.pc + 4), hjump hnear, hlink hnear (s.pc + if s.cfg.jl16LinkFour then 4 else 2)⟩

/-! ## The conditional move and the T flag (R286, R288, R483) -/

theorem exec_mvCond (s : State) (c : Cond) (rd ra : Reg) :
    exec (.mvCond c rd ra) s =
      .next ((if c ≠ .cnz ∧ s.holds c then s.setReg rd (s.reg ra) else s).advance 4) := rfl

/-- T takes the condition; the other four flags stay. -/
theorem tested_holds (s : State) (c : Cond) (len : Word) :
    s.tested { t := .set (s.holds c) } len =
      { s with flags := { s.flags with t := s.holds c }, pc := s.pc + len } :=
  tested_drawn (by simp [FlagUpdate.draws]) s len

/-- Settles O34: the move under its guard and outside it, and T as the value of the condition in both widths. -/
theorem conditionalMoveAndTest : Obligations.ConditionalMoveAndTest := by
  unfold Obligations.ConditionalMoveAndTest
  intro s c rd ra
  refine ⟨fun hc h => ?moves, fun h => ?skips, next_of_eq (tested_holds s c 4), next_of_eq (tested_holds s c 2)⟩
  case moves =>
    rw [exec_mvCond, if_pos ⟨hc, h⟩]
    rfl
  case skips =>
    have hnot : ¬(c ≠ .cnz ∧ s.holds c = true) := fun ⟨hc, hholds⟩ =>
      h.elim hc fun hfails => Bool.false_ne_true (hfails.symm.trans hholds)
    rw [exec_mvCond, if_neg hnot]
    rfl

end Sys2Proof.Machine
end

section
/-! PROOFS. Loads, stores and `cache`, with the 16-bit loads and stores (43_load_store_32.md, 45_16bit.md). -/

namespace Sys2Proof.Machine

/-! ## Accesses that MemMap allows (R300) -/

/-- An access at a multiple of its size, where MemMap allows it, has its effect. -/
theorem accessed_allowed {s : State} {k : AccessKind} {w : Width} {ea : Word} (ha : ea.toNat % w.bytes = 0)
    (hm : s.memMap ea k = .ok) (effect : State) : s.accessed k w ea effect = effect :=
  accessed_ok (by simp [misaligned_eq, ha]) hm

/-! ## Loads (R301 to R315) -/

section loads

variable {s : State} {k : LoadKind} {rd ra : Reg} {ea base len : Word}

theorem loaded_h : s.loaded .h ea = BitVec.ofInt 32 (s.half ea).toInt := sext_eq (s.half ea)

theorem loaded_hu : s.loaded .hu ea = BitVec.ofNat 32 (s.half ea).toNat := zext_eq (s.half ea)

theorem loaded_b : s.loaded .b ea = BitVec.ofInt 32 (s.byte ea).toInt := sext_eq (s.byte ea)

theorem loaded_bu : s.loaded .bu ea = BitVec.ofNat 32 (s.byte ea).toNat := zext_eq (s.byte ea)

theorem load_allowed (ha : ea.toNat % k.width.bytes = 0) (hm : s.memMap ea .load = .ok) :
    s.load k rd ea len = { s.setReg rd (s.loaded k ea) with pc := s.pc + len } :=
  accessed_allowed ha hm _

theorem loadUpdating_allowed (ha : ea.toNat % k.width.bytes = 0) (hm : s.memMap ea .load = .ok) :
    s.loadUpdating k rd ra ea base len = (s.setLoadedBase rd ra (s.loaded k ea) base).advance len :=
  accessed_allowed ha hm _

/-- A load into its own base register leaves that register UNDEFINED and touches nothing else but the count of free values (R326). -/
theorem setLoadedBase_undefined (h : rd = ra) (v : Word) :
    ∃ x n, s.setLoadedBase rd ra v base = { s.setReg rd x with free := n } :=
  ⟨_, _, if_pos h⟩

end loads

/-- `pop!` by the number of its base register (R466). -/
theorem exec_pop16 (s : State) (rd : G0) (h : Bool) (base : BitVec 3) :
    exec (.pop16 rd h base) s = .next (s.loadUpdating .w (gh h rd) (base.setWidth 5) (s.reg (base.setWidth 5))
      (s.reg (base.setWidth 5) + 4) 2) := by
  rw [← gBase_eq]
  rfl

/-- Settles O35: every load is `State.load` of its kind at its own address; the two extensions are the signed and the unsigned value. -/
theorem loads : Obligations.Loads := by
  unfold Obligations.Loads
  intro s rd ra imm d a off loads ea ea16 bp
  have hload {k : LoadKind} {i : Instr} {x y v len : Word} {r : Reg} (hi : exec i s = .next (s.load k r x len))
      (hx : x = y) (hv : s.loaded k y = v) : loads i k.width.bytes y r v len := by
    intro ha hm
    rw [hi, hx, load_allowed ha hm, hv]
  have hbp (w : Width) : s.reg basePointer + baseOffset w off = bp w.bytes := basePointer_address s w off
  exact ⟨hload (k := .w) rfl rfl rfl, hload (k := .h) rfl rfl loaded_h, hload (k := .hu) rfl rfl loaded_hu,
    hload (k := .b) rfl rfl loaded_b, hload (k := .bu) rfl rfl loaded_bu, hload (k := .w) rfl rfl rfl,
    hload (k := .h) rfl rfl loaded_h, hload (k := .bu) rfl rfl loaded_bu, hload (k := .w) rfl (hbp .word) rfl,
    hload (k := .h) rfl (hbp .half) loaded_h, hload (k := .bu) rfl (hbp .byte) loaded_bu⟩

/-- Settles O36: every load of this family is `State.loadUpdating` of its kind, at its old or its new base. -/
theorem indexedLoads : Obligations.IndexedLoads := by
  unfold Obligations.IndexedLoads
  intro s rd ra imm d h base loads old new sb
  have hload {k : LoadKind} {i : Instr} {x v base len : Word} {r b : Reg}
      (hi : exec i s = .next (s.loadUpdating k r b x base len)) (hv : s.loaded k x = v) :
      loads i k.width.bytes x r b v base len := by
    intro ha hm
    rw [hi, loadUpdating_allowed ha hm, hv]
    refine ⟨fun hne => ?distinct, fun heq => ?same⟩
    case distinct =>
      rw [setLoadedBase_ne hne]
      rfl
    case same =>
      obtain ⟨y, n, hy⟩ := setLoadedBase_undefined (s := s) (base := base) heq v
      exact ⟨y, n, by rw [hy]; rfl⟩
  exact ⟨hload (k := .w) rfl rfl, hload (k := .h) rfl loaded_h, hload (k := .hu) rfl loaded_hu,
    hload (k := .b) rfl loaded_b, hload (k := .bu) rfl loaded_bu, hload (k := .w) rfl rfl,
    hload (k := .h) rfl loaded_h, hload (k := .hu) rfl loaded_hu, hload (k := .b) rfl loaded_b,
    hload (k := .bu) rfl loaded_bu, hload (k := .w) (exec_pop16 s d h base) rfl⟩

/-! ## Stores (R316 to R324) -/

section stores

variable {s : State} {w : Width} {rd ra : Reg} {ea base len : Word}

theorem store_allowed (ha : ea.toNat % w.bytes = 0) (hm : s.memMap ea .store = .ok) :
    s.store w rd ea len = (s.stored w ea (s.reg rd)).advance len :=
  accessed_allowed ha hm _

theorem storeUpdating_allowed (ha : ea.toNat % w.bytes = 0) (hm : s.memMap ea .store = .ok) :
    s.storeUpdating w rd ra ea base len = ((s.stored w ea (s.reg rd)).setReg ra base).advance len :=
  accessed_allowed ha hm _

end stores

/-- `push!` by the number of its base register (R467). -/
theorem exec_push16 (s : State) (rd : G0) (h : Bool) (base : BitVec 3) :
    exec (.push16 rd h base) s = .next (s.storeUpdating .word (gh h rd) (base.setWidth 5)
      (s.reg (base.setWidth 5) - 4) (s.reg (base.setWidth 5) - 4) 2) := by
  rw [← gBase_eq]
  rfl

/-- Settles O37: every store is `State.store` of its size at its own address, and `storeThenLoad` says what a store leaves in memory. -/
theorem stores : Obligations.Stores := by
  unfold Obligations.Stores
  intro s rd ra imm d a off hwf stores ea bp
  have hstore {w : Width} {i : Instr} {x y len : Word} {r : Reg} (hi : exec i s = .next (s.store w r x len))
      (hx : x = y) : stores i w y (s.reg r) len := by
    intro ha hm
    rw [hi, hx, store_allowed ha hm]
    exact ⟨_, rfl, rfl, storeThenLoad s w y (s.reg r) hwf⟩
  have hbp (w : Width) : s.reg basePointer + baseOffset w off = bp w.bytes := basePointer_address s w off
  exact ⟨hstore rfl rfl, hstore rfl rfl, hstore rfl rfl, hstore rfl rfl, hstore rfl rfl, hstore rfl rfl,
    hstore rfl (hbp .word), hstore rfl (hbp .half), hstore rfl (hbp .byte)⟩

/-- Settles O38: every store of this family is `State.storeUpdating` of its size, at its old or its new base. -/
theorem indexedStores : Obligations.IndexedStores := by
  unfold Obligations.IndexedStores
  intro s rd ra imm d h base hwf stores old new pushed
  have hstore {w : Width} {i : Instr} {x base len : Word} {r b : Reg}
      (hi : exec i s = .next (s.storeUpdating w r b x base len)) : stores i w x (s.reg r) b base len := by
    intro ha hm
    rw [hi, storeUpdating_allowed ha hm]
    exact ⟨_, rfl, rfl, storeThenLoad s w x (s.reg r) hwf⟩
  exact ⟨hstore rfl, hstore rfl, hstore rfl, hstore rfl, hstore rfl, hstore rfl, hstore (exec_push16 s d h base)⟩

/-! ## `cache` and the empty instructions (R343 to R346) -/

/-- The operations that Table 2-2 leaves undefined (R344). -/
theorem cacheOpDefined_false_iff (op : BitVec 5) :
    cacheOpDefined op = false ↔
      op.toNat ∈ [0x05, 0x06, 0x07, 0x0F, 0x12, 0x13, 0x14, 0x15, 0x16, 0x17, 0x19, 0x1C] := by
  revert op; decide

theorem cacheOpReads_iff (op : BitVec 5) :
    cacheOpReads op = true ↔ op.toNat ∈ [0x00, 0x01, 0x03, 0x08, 0x09, 0x0B] := by
  revert op; decide

theorem cacheOpDefined_of_reads {op : BitVec 5} (h : cacheOpReads op = true) : cacheOpDefined op = true := by
  revert op; decide

theorem exec_cache (s : State) (op : BitVec 5) (ra : Reg) (imm : BitVec 15) :
    exec (.cache op ra imm) s = .next
      (if !cacheOpDefined op then s.raise .ri
      else if cacheOpReads op && s.memMap (s.reg ra + sext imm) .load == .busError then
        s.raiseAt .busErrData (s.reg ra + sext imm)
      else s.advance 4) := rfl

/-- Settles O47: `cache` by its three answers, of which the bus error is that of an operation that reads and so is defined. -/
theorem cacheAndNops : Obligations.CacheAndNops := by
  unfold Obligations.CacheAndNops
  intro s op ra imm ea undefined reads
  have hundefined : undefined ↔ cacheOpDefined op = false := (cacheOpDefined_false_iff op).symm
  have hreads : reads ↔ cacheOpReads op = true := (cacheOpReads_iff op).symm
  rw [exec_cache, sext_eq, hundefined, hreads]
  refine ⟨rfl, rfl, rfl, fun hu => ?undefined, fun hr hm => ?busError, fun hd hok => ?advances⟩
  case undefined =>
    rw [hu]
    rfl
  case busError =>
    rw [cacheOpDefined_of_reads hr, hr, hm]
    rfl
  case advances =>
    rw [Bool.eq_true_of_not_eq_false hd, Bool.not_true, if_neg Bool.false_ne_true, if_neg (by simpa using hok)]
    rfl

end Sys2Proof.Machine
end

section
/-! PROOFS. The combine instructions, in big endian and refused in little endian (43_load_store_32.md section 4). -/

namespace Sys2Proof.Machine

/-! ## The address of a combine instruction (R330) -/

theorem misalignment_lt (a : Word) : misalignment a < 4 := (a.extractLsb' 0 2).isLt

theorem wordAddress_add_misalignment (a : Word) : wordAddress a + BitVec.ofNat 32 (misalignment a) = a := by
  rw [wordAddress_eq, misalignment_eq, BitVec.sub_add_cancel]

theorem misalignment_add_four (a : Word) : misalignment (a + 4) = misalignment a := by
  rw [misalignment_eq, misalignment_eq, BitVec.toNat_add, Nat.mod_mod_of_dvd _ (by decide)]
  exact Nat.add_mod_right a.toNat 4

theorem wordAddress_add_four (a : Word) : wordAddress (a + 4) = wordAddress a + 4 := by
  have hfour : (4 : Word).toNat = 4 := rfl
  apply BitVec.eq_of_toNat_eq
  simp only [wordAddress_toNat, BitVec.toNat_add]
  omega

/-- The next word begins as many bytes behind the address as the word of the address has left. -/
theorem wordAddress_add_four_eq (a : Word) : wordAddress a + 4 = a + BitVec.ofNat 32 (4 - misalignment a) := by
  have hlt := misalignment_lt a
  conv_rhs => rw [← wordAddress_add_misalignment a]
  rw [BitVec.add_assoc, ← BitVec.ofNat_add, wordAddress_add_misalignment, Nat.add_sub_cancel' hlt.le]
  rfl

/-! ## What the combine instructions put together (R332 to R335) -/

theorem combineLoad_zero (lcr m : Word) : combineLoad 0 lcr m = lcr := by
  simp [combineLoad, BitVec.ushiftRight_eq_zero (x := m) (Nat.le_refl 32)]

theorem combineStore_zero (scr v : Word) : combineStore 0 scr v = v := by
  simp [combineStore, BitVec.ushiftRight_eq_zero (x := scr) (Nat.le_refl 32)]

/-- The merged register as a number: the low part of LCR above the high part of the word. -/
theorem combineLoad_toNat {n : Nat} (hn : n < 4) (lcr m : Word) :
    (combineLoad n lcr m).toNat = 2 ^ (8 * n) * (lcr.toNat % 2 ^ (32 - 8 * n)) + m.toNat / 2 ^ (32 - 8 * n) := by
  have hpow : 2 ^ (32 - 8 * n) * 2 ^ (8 * n) = 2 ^ 32 := by
    rw [← Nat.pow_add, Nat.sub_add_cancel (by omega)]
  have hlow : m.toNat / 2 ^ (32 - 8 * n) < 2 ^ (8 * n) := Nat.div_lt_of_lt_mul (hpow ▸ m.isLt)
  rw [Nat.two_pow_add_eq_or_of_lt hlow, ← Nat.mul_mod_mul_left, Nat.mul_comm (2 ^ (8 * n)) (2 ^ _), hpow,
    combineLoad, BitVec.toNat_or, BitVec.toNat_shiftLeft, BitVec.toNat_ushiftRight, Nat.shiftLeft_eq,
    Nat.shiftRight_eq_div_pow, Nat.mul_comm lcr.toNat]

/-- Two neighbouring words put together at the byte number of an address make up the word at it (R338). -/
theorem combineLoad_word {s : State} (hbig : s.cfg.littleEndian = false) (a : Word) :
    combineLoad (misalignment a) (s.word (wordAddress a)) (s.word (wordAddress a + 4)) = s.word a := by
  have hn := misalignment_lt a
  have ha := wordAddress_add_misalignment a
  generalize misalignment a = n at *
  generalize wordAddress a = wa at *
  subst ha
  apply BitVec.eq_of_toNat_eq
  simp only [combineLoad_toNat hn, word_toNat, hbig]
  interval_cases n <;> simp [bytePlace, Width.bytes, BitVec.add_assoc] <;> omega

/-- A byte of a word that is rotated right by whole bytes comes from `n` bytes above, around the end. -/
theorem extractLsb'_rotateRight_bytes (v : Word) {i n : Nat} (hi : i < 4) (hn : n < 4) :
    (v.rotateRight (8 * n)).extractLsb' (8 * i) 8 = v.extractLsb' (8 * ((i + n) % 4)) 8 := by
  apply BitVec.eq_of_getLsbD_eq
  intro j hj
  rw [BitVec.getLsbD_extractLsb', BitVec.getLsbD_extractLsb', getLsbD_rotateRight_mod v (by omega) (by omega),
    show (8 * i + j + 8 * n) % 32 = 8 * ((i + n) % 4) + j by omega]

/-- SCR after `scb` and `scw` has the bytes that are still to be stored in front (R334, R335). -/
theorem wordBytes_combineRest {n : Nat} (hn : n < 4) (v : Word) :
    wordBytes (combineRest n v) = (wordBytes v).drop (4 - n) ++ (wordBytes v).take (4 - n) := by
  have hbytes : wordBytes (combineRest n v) = [3, 2, 1, 0].map fun i => v.extractLsb' (8 * ((i + n) % 4)) 8 :=
    List.map_congr_left fun i hi =>
      extractLsb'_rotateRight_bytes v ((by decide : ∀ i ∈ [3, 2, 1, 0], i < 4) i hi) hn
  rw [hbytes]
  interval_cases n <;> rfl

theorem take_wordBytes_combineRest {n : Nat} (hn : n < 4) (v : Word) :
    (wordBytes (combineRest n v)).take n = (wordBytes v).drop (4 - n) := by
  rw [wordBytes_combineRest hn, List.take_left']
  rw [List.length_drop, show (wordBytes v).length = 4 from rfl]
  omega

theorem getElem_wordBytes (v : Word) {j : Nat} (hj : j < (wordBytes v).length) :
    (wordBytes v)[j] = v.extractLsb' (24 - 8 * j) 8 := by
  have hlt : j < 4 := hj
  interval_cases j <;> rfl

/-! ## Memory as the list of its writes -/

/-- Two writes of which the second begins where the first ends are one write. -/
theorem writeBytes_append (m : List Host.Cell) (a : Word) (bs cs : List Byte) :
    writeBytes m a (bs ++ cs) = writeBytes (writeBytes m a bs) (a + BitVec.ofNat 32 bs.length) cs := by
  induction bs generalizing m a with
  | nil => rw [List.length_nil, BitVec.add_zero]; rfl
  | cons b bs ih => rw [List.length_cons, ← address_succ, List.cons_append]; exact ih _ _

theorem stored_word_mem {s : State} (hbig : s.cfg.littleEndian = false) (a v : Word) :
    (s.stored .word a v).mem = writeBytes s.mem a (wordBytes v) := by
  rw [stored_mem, hbig]
  rfl

theorem byte_of_mem_eq {t u : State} (hmem : u.mem = t.mem) (a : Word) : u.byte a = t.byte a :=
  congrArg (readByte · a.toNat) hmem

theorem word_of_mem_eq {t u : State} (hcfg : u.cfg = t.cfg) (hmem : u.mem = t.mem) (a : Word) :
    u.word a = t.word a := by
  simp only [State.word, hcfg, byte_of_mem_eq hmem]

/-! ## The combine instructions in big endian -/

/-- The state after `lcw` or `lce` that gives its register `v` and LCR `lcr`. -/
def State.combineLoaded (s : State) (rd ra : Reg) (v lcr : Word) : State :=
  ({ s with lcr := lcr }.setLoadedBase rd ra v (s.reg ra + 4)).advance 4

/-- The state after `scb`, `scw` or `sce` that stores `bs` at `ea` and gives SCR `scr`. -/
def State.combineStored (s : State) (ra : Reg) (ea : Word) (bs : List Byte) (scr : Word) : State :=
  { s.setReg ra (s.reg ra + 4) with mem := writeBytes s.mem ea bs, scr := scr, pc := s.pc + 4 }

theorem reg_combineStored (s : State) (ra : Reg) (ea : Word) (bs : List Byte) (scr : Word) :
    (s.combineStored ra ea bs scr).reg ra = s.reg ra + 4 :=
  (reg_setReg s ra ra _).trans (if_pos rfl)

theorem combineLoaded_ne {rd ra : Reg} (h : rd ≠ ra) (s : State) (v lcr : Word) :
    s.combineLoaded rd ra v lcr = { (s.setReg rd v).setReg ra (s.reg ra + 4) with lcr := lcr, pc := s.pc + 4 } := by
  rw [State.combineLoaded, setLoadedBase_ne h]
  rfl

/-- Where both registers are one it becomes UNDEFINED, with the effect on LCR and pc as otherwise. -/
theorem combineLoaded_undefined {rd ra : Reg} (h : rd = ra) (s : State) (v lcr : Word) :
    ∃ x n, s.combineLoaded rd ra v lcr = { s.setReg rd x with lcr := lcr, pc := s.pc + 4, free := n } := by
  obtain ⟨x, n, hx⟩ := setLoadedBase_undefined (s := { s with lcr := lcr }) (base := s.reg ra + 4) h v
  exact ⟨x, n, by rw [State.combineLoaded, hx]; rfl⟩

section combine

variable {s : State} (hbig : s.cfg.littleEndian = false) (rd ra : Reg)
include hbig

theorem exec_lcb (hm : s.memMap (wordAddress (s.reg ra)) .load = .ok) :
    exec (.lcb ra) s = .next { s.setReg ra (s.reg ra + 4) with
      lcr := s.word (wordAddress (s.reg ra)), pc := s.pc + 4 } :=
  (combined_big hbig _).trans (congrArg _ (accessed_allowed (wordAddress_mod _) hm _))

theorem exec_lcw (hm : s.memMap (wordAddress (s.reg ra)) .load = .ok) :
    exec (.lcw rd ra) s = .next (s.combineLoaded rd ra
      (combineLoad (misalignment (s.reg ra)) s.lcr (s.word (wordAddress (s.reg ra))))
      (s.word (wordAddress (s.reg ra)))) :=
  (combined_big hbig _).trans (congrArg _ (accessed_allowed (wordAddress_mod _) hm _))

/-- At an aligned address `lce` gives LCR and asks for no word (R333). -/
theorem exec_lce_aligned (hn : misalignment (s.reg ra) = 0) :
    exec (.lce rd ra) s = .next (s.combineLoaded rd ra s.lcr s.lcr) :=
  (combined_big hbig _).trans (congrArg _ (if_pos hn))

/-- At any other address `lce` does what `lcw` does (R333). -/
theorem exec_lce_misaligned (hn : misalignment (s.reg ra) ≠ 0) : exec (.lce rd ra) s = exec (.lcw rd ra) s := by
  have hlce : exec (.lce rd ra) s = .next (s.loadCombined rd ra) :=
    (combined_big hbig _).trans (congrArg _ (if_neg hn))
  exact hlce.trans (combined_big hbig _).symm

/-- Either way `lce` gives the merged value; the word that it merges counts, and is asked for, only where the address is not aligned. -/
theorem exec_lce (hm : misalignment (s.reg ra) ≠ 0 → s.memMap (wordAddress (s.reg ra)) .load = .ok) :
    ∃ lcr, exec (.lce rd ra) s = .next (s.combineLoaded rd ra
      (combineLoad (misalignment (s.reg ra)) s.lcr (s.word (wordAddress (s.reg ra)))) lcr) := by
  by_cases hn : misalignment (s.reg ra) = 0
  · exact ⟨_, by rw [exec_lce_aligned hbig rd ra hn, hn, combineLoad_zero]⟩
  · exact ⟨_, (exec_lce_misaligned hbig rd ra hn).trans (exec_lcw hbig rd ra (hm hn))⟩

theorem exec_scb (hm : s.memMap (s.reg ra) .store = .ok) :
    exec (.scb rd ra) s = .next (s.combineStored ra (s.reg ra)
      ((wordBytes (s.reg rd)).take (4 - misalignment (s.reg ra)))
      (combineRest (misalignment (s.reg ra)) (s.reg rd))) :=
  (combined_big hbig _).trans (congrArg _ (accessed_allowed (Nat.mod_one _) hm _))

theorem exec_scw (hm : s.memMap (wordAddress (s.reg ra)) .store = .ok) :
    exec (.scw rd ra) s = .next (s.combineStored ra (wordAddress (s.reg ra))
      (wordBytes (combineStore (misalignment (s.reg ra)) s.scr (s.reg rd)))
      (combineRest (misalignment (s.reg ra)) (s.reg rd))) := by
  refine (combined_big hbig _).trans (congrArg _ ((accessed_allowed (wordAddress_mod _) hm _).trans ?_))
  rw [State.combineStored, ← stored_word_mem hbig]
  rfl

/-- `sce` stores the first bytes of SCR, none at an aligned address, where it does not ask for the word (R336). -/
theorem exec_sce (hm : misalignment (s.reg ra) ≠ 0 → s.memMap (wordAddress (s.reg ra)) .store = .ok) :
    exec (.sce ra) s = .next (s.combineStored ra (wordAddress (s.reg ra))
      ((wordBytes s.scr).take (misalignment (s.reg ra))) s.scr) := by
  refine (combined_big hbig _).trans (congrArg _ ?_)
  split
  case isTrue hn =>
    rw [hn]
    rfl
  case isFalse hn => exact accessed_allowed (Nat.mod_one _) (hm hn) _

end combine

/-- Settles O45: each of the six is `State.combined`, which refuses in little endian. -/
theorem combineRefusedInLittleEndian : Obligations.CombineRefusedInLittleEndian := by
  unfold Obligations.CombineRefusedInLittleEndian
  intro s rd ra hlittle
  have hrefused (effect : State) : s.combined effect = .refused .littleEndianCombine := if_pos hlittle
  simp only [List.forall_mem_cons]
  exact ⟨hrefused _, hrefused _, hrefused _, hrefused _, hrefused _, hrefused _, List.forall_mem_nil _⟩

/-- Settles O41: `lcw` and `lce` end in `State.combineLoaded`, whose register is the merged value. -/
theorem combineLoads : Obligations.CombineLoads := by
  unfold Obligations.CombineLoads
  intro s rd ra hbig a n wa m merged writes
  have hwrites {i : Instr} {v lcr : Word} (hi : exec i s = .next (s.combineLoaded rd ra v lcr)) : writes i v lcr := by
    refine ⟨fun hne => hi.trans (congrArg _ (combineLoaded_ne hne s v lcr)), fun heq => ?_⟩
    obtain ⟨x, k, hx⟩ := combineLoaded_undefined heq s v lcr
    exact ⟨x, k, hi.trans (congrArg _ hx)⟩
  have hwa : wordAddress a = wa := wordAddress_eq a
  have hn : misalignment a = n := misalignment_eq a
  have hmerged : combineLoad n s.lcr m = merged := by
    by_cases h : n = 0
    · simp only [merged, h, combineLoad_zero, if_true]
    · simp only [merged, if_neg h, combineLoad]
  refine ⟨fun hm => ⟨?lcb, hwrites ?lcw, fun h => hwrites ?lce⟩, fun h => hwrites ?aligned⟩
  case lcb => rw [exec_lcb hbig ra (hwa ▸ hm), hwa]
  case lcw => rw [exec_lcw hbig rd ra (hwa ▸ hm), hn, hwa, hmerged]
  case lce => rw [exec_lce_misaligned hbig rd ra (hn ▸ h), exec_lcw hbig rd ra (hwa ▸ hm), hn, hwa, hmerged]
  case aligned => exact exec_lce_aligned hbig rd ra (hn.trans h)

/-- Settles O42: all three end in `State.combineStored`, with a first part of the bytes of a word. -/
theorem combineStores : Obligations.CombineStores := by
  unfold Obligations.CombineStores
  intro s rd ra hbig hwf a v n wa byteOf rest stores
  have hstores {i : Instr} {ea x scr : Word} {count : Nat} (hcount : count ≤ 4)
      (hi : exec i s = .next (s.combineStored ra ea ((wordBytes x).take count) scr)) : stores i ea count x scr := by
    have hlength : ((wordBytes x).take count).length = count := List.length_take_of_le hcount
    refine ⟨_, hi, rfl, fun j hj => ?stored, fun y hy => ?kept⟩
    case stored =>
      have hread := readByte_writeBytes_inside (a := ea) hwf (by rw [hlength]; omega) (hj.trans_eq hlength.symm)
      rw [List.getElem_take, getElem_wordBytes] at hread
      exact hread
    case kept => exact readByte_writeBytes_outside hwf (by rwa [hlength])
  have hwa : wordAddress a = wa := wordAddress_eq a
  have hn : misalignment a = n := misalignment_eq a
  have hlt : n < 4 := hn ▸ misalignment_lt a
  have hmerged : combineStore n s.scr v =
      if n = 0 then v else s.scr >>> (32 - 8 * n) <<< (32 - 8 * n) ||| v >>> (8 * n) := by
    by_cases h : n = 0
    · rw [h, combineStore_zero, if_pos rfl]
    · rw [if_neg h, combineStore]
  have hsce (hm : n ≠ 0 → s.memMap wa .store = .ok) : stores (.sce ra) wa n s.scr s.scr := by
    apply hstores hlt.le
    rw [exec_sce hbig ra (hn ▸ hwa ▸ hm), hn, hwa]
  refine ⟨fun hm => hstores (Nat.sub_le 4 n) ?scb,
    fun hm => ⟨hstores (Nat.le_refl 4) ?scw, fun _ => hsce fun _ => hm⟩, fun h => ?aligned⟩
  case scb => exact hn ▸ exec_scb hbig rd ra hm
  case scw =>
    rw [exec_scw hbig rd ra (hwa ▸ hm), hn, hwa, hmerged]
    rfl
  case aligned =>
    have hnone := hsce fun hne => absurd h hne
    rwa [h] at hnone

/-- Settles O43: the second instruction finds in LCR the word that the first one read, at the same byte number. -/
theorem unalignedLoad : Obligations.UnalignedLoad := by
  unfold Obligations.UnalignedLoad
  intro s rd ra hbig hne a wa hm hnext
  have hwa : wordAddress a = wa := wordAddress_eq a
  have hn : misalignment a = a.toNat % 4 := misalignment_eq a
  let t : State := { s.setReg ra (a + 4) with lcr := s.word (wordAddress a), pc := s.pc + 4 }
  have hbase : t.reg ra = a + 4 := (reg_setReg s ra ra _).trans (if_pos rfl)
  have hasked : misalignment (t.reg ra) ≠ 0 → t.memMap (wordAddress (t.reg ra)) .load = .ok := by
    rw [hbase, misalignment_add_four, wordAddress_add_four, hn, hwa]
    exact hnext
  have hvalue : combineLoad (misalignment (t.reg ra)) t.lcr (t.word (wordAddress (t.reg ra))) = s.word a := by
    rw [hbase, misalignment_add_four, wordAddress_add_four, word_of_mem_eq (t := s) rfl rfl]
    exact combineLoad_word hbig a
  obtain ⟨lcr, hlce⟩ := exec_lce (s := t) hbig rd ra hasked
  rw [hvalue, combineLoaded_ne hne] at hlce
  refine ⟨t, _, exec_lcb hbig ra (hwa ▸ hm), hlce, ?value, ?base, rfl, BitVec.add_assoc s.pc 4 4⟩
  case value =>
    show ((t.setReg rd (s.word a)).setReg ra _).reg rd = _
    rw [reg_setReg, if_neg hne, reg_setReg, if_pos rfl]
  case base =>
    show ((t.setReg rd (s.word a)).setReg ra (t.reg ra + 4)).reg ra = _
    rw [reg_setReg, if_pos rfl, hbase]
    exact BitVec.add_assoc a 4 4

/-- Settles O44: the two stores write neighbouring bytes, so that together they are the store of one word. -/
theorem unalignedStore : Obligations.UnalignedStore := by
  unfold Obligations.UnalignedStore
  intro s rd ra hbig hwf a wa hm hnext
  have hwa : wordAddress a = wa := wordAddress_eq a
  have hn : misalignment a = a.toNat % 4 := misalignment_eq a
  have hlt : misalignment a < 4 := misalignment_lt a
  let v := s.reg rd
  let t := s.combineStored ra a ((wordBytes v).take (4 - misalignment a)) (combineRest (misalignment a) v)
  have hbase : t.reg ra = a + 4 := reg_combineStored s ra _ _ _
  have hasked : misalignment (t.reg ra) ≠ 0 → t.memMap (wordAddress (t.reg ra)) .store = .ok := by
    rw [hbase, misalignment_add_four, wordAddress_add_four, hn, hwa]
    exact hnext
  have hsce := exec_sce (s := t) hbig ra hasked
  rw [hbase, misalignment_add_four, wordAddress_add_four] at hsce
  let u := t.combineStored ra (wordAddress a + 4) ((wordBytes t.scr).take (misalignment a)) t.scr
  have hmem : u.mem = (s.stored .word a v).mem := by
    have hlength : ((wordBytes v).take (4 - misalignment a)).length = 4 - misalignment a :=
      List.length_take_of_le (Nat.sub_le 4 _)
    calc u.mem
      _ = writeBytes (writeBytes s.mem a ((wordBytes v).take (4 - misalignment a))) (wordAddress a + 4)
            ((wordBytes (combineRest (misalignment a) v)).take (misalignment a)) := rfl
      _ = writeBytes s.mem a
            ((wordBytes v).take (4 - misalignment a) ++ (wordBytes v).drop (4 - misalignment a)) := by
          rw [take_wordBytes_combineRest hlt, wordAddress_add_four_eq, writeBytes_append, hlength]
      _ = (s.stored .word a v).mem := by rw [List.take_append_drop, stored_word_mem hbig]
  refine ⟨t, u, exec_scb hbig rd ra hm, hsce, ?word, fun x hx => ?kept, ?base, BitVec.add_assoc s.pc 4 4⟩
  case word => rw [word_of_mem_eq (u := u) (t := s.stored .word a v) rfl hmem, word_stored_word a v hwf]
  case kept => rw [byte_of_mem_eq hmem, byte_stored_outside .word a v hwf hx]
  case base =>
    rw [reg_combineStored, hbase]
    exact BitVec.add_assoc a 4 4

end Sys2Proof.Machine
end

section
/-! PROOFS. Multiplication and division, the moves to and from the custom-engine and special registers, `ceinst` (44_system_cop_ce_32.md sections 2, 3, 4 and 7, 47_enhanced_mac.md section 2). -/

namespace Sys2Proof.Machine

/-! ## Products and accumulations (R361, R362, R545 to R551) -/

/-- Modulo 2^64 it makes no difference whether the accumulator is read as signed or as unsigned. -/
theorem ofInt_acc_toInt (s : State) : BitVec.ofInt 64 s.acc.toInt = BitVec.ofInt 64 s.acc.toNat := by
  rw [BitVec.ofInt_toInt, BitVec.ofInt_natCast, BitVec.ofNat_toNat, BitVec.setWidth_eq]

/-- An accumulation writes its value modulo 2^64 to `{CEH, CEL}`, and nothing else but pc. -/
theorem accumulated_advance (s : State) (v : Int) (len : Word) :
    ∃ h l : Word, ((h.toNat * 2 ^ 32 + l.toNat : Nat) : Int) = v % 2 ^ 64 ∧
      (s.accumulated v).advance len = { s with ceh := h, cel := l, pc := s.pc + len } := by
  refine ⟨(s.accumulated v).ceh, (s.accumulated v).cel, ?_, rfl⟩
  rw [State.accumulated, setAcc_toNat, BitVec.toNat_ofInt, Int.toNat_of_nonneg (Int.emod_nonneg v (by decide))]
  rfl

/-- Settles O48: all nine are `State.accumulated`, and the signed accumulator is `{CEH, CEL}` modulo 2^64. -/
theorem accumulations : Obligations.Accumulations := by
  unfold Obligations.Accumulations
  intro s ra rb p u f acc gives
  have hgives {i : Instr} {v w : Int} (hi : exec i s = .next ((s.accumulated v).advance 4))
      (hv : BitVec.ofInt 64 v = BitVec.ofInt 64 w) : gives i w := by
    obtain ⟨h, l, hvalue, hnext⟩ := accumulated_advance s w 4
    refine ⟨h, l, hvalue, ?_⟩
    rw [hi, ← hnext, State.accumulated, State.accumulated, hv]
  have hunsigned : (s.acc.toNat : Int) = acc := congrArg _ (acc_toNat s)
  have hsigned : BitVec.ofInt 64 s.acc.toInt = BitVec.ofInt 64 acc := by rw [ofInt_acc_toInt, hunsigned]
  have hadd (x : Int) : BitVec.ofInt 64 (s.acc.toInt + x) = BitVec.ofInt 64 (acc + x) := by
    rw [BitVec.ofInt_add, hsigned, ← BitVec.ofInt_add]
  have hsub (x : Int) : BitVec.ofInt 64 (s.acc.toInt - x) = BitVec.ofInt 64 (acc - x) := by
    rw [ofInt_sub, hsigned, ← ofInt_sub]
  exact ⟨hgives rfl rfl, hgives rfl rfl, hgives rfl rfl,
    hgives rfl (hadd p), hgives rfl (congrArg (fun x => BitVec.ofInt 64 (x + u)) hunsigned), hgives rfl (hadd f),
    hgives rfl (hsub p), hgives rfl (congrArg (fun x => BitVec.ofInt 64 (x - u)) hunsigned), hgives rfl (hsub f)⟩

/-! ## Division (R363 to R365) -/

/-- The one quotient that is out of range, by the words of its operands (R365). -/
theorem quotient_overflows_iff (a b : Word) :
    a.toInt = -2 ^ 31 ∧ b.toInt = -1 ↔ a = 0x80000000 ∧ b = 0xFFFFFFFF :=
  and_congr (BitVec.toInt_inj (y := 0x80000000)) (BitVec.toInt_inj (y := 0xFFFFFFFF))

/-- The quotient fits a word unless it overflows. -/
theorem wrap32_tdiv_toInt {a b : Word} (h : ¬(a.toInt = -2 ^ 31 ∧ b.toInt = -1)) :
    (wrap32 (a.toInt.tdiv b.toInt)).toInt = a.toInt.tdiv b.toInt := by
  have hfits : a ≠ BitVec.intMin 32 ∨ b ≠ -1#32 := by
    rw [quotient_overflows_iff] at h
    exact not_and_or.1 h
  rw [wrap32, BitVec.toInt_ofInt, ← BitVec.toInt_sdiv, BitVec.toInt_sdiv_of_ne_or_ne a b hfits]

/-- The remainder always fits a word. -/
theorem wrap32_tmod_toInt (a b : Word) : (wrap32 (a.toInt.tmod b.toInt)).toInt = a.toInt.tmod b.toInt := by
  rw [← BitVec.toInt_srem, wrap32, BitVec.ofInt_toInt]

/-- The remainder of a truncated division has the sign of the dividend, here the negative one. -/
theorem tmod_nonpos {a : Int} (b : Int) (ha : a ≤ 0) : a.tmod b ≤ 0 := by
  have hneg : 0 ≤ (-a).tmod b := Int.tmod_nonneg b (by omega)
  rw [Int.neg_tmod] at hneg
  omega

theorem exec_div (s : State) (ra rb : Reg) :
    exec (.div ra rb) s = .next
      (if s.reg rb = 0 then s.dividedByZero
      else if s.reg ra = 0x80000000 ∧ s.reg rb = 0xFFFFFFFF then s.drawAcc.advance 4
      else { s with
        cel := wrap32 ((s.reg ra).toInt.tdiv (s.reg rb).toInt)
        ceh := wrap32 ((s.reg ra).toInt.tmod (s.reg rb).toInt) }.advance 4) := rfl

theorem exec_divu (s : State) (ra rb : Reg) :
    exec (.divu ra rb) s = .next
      (if s.reg rb = 0 then s.dividedByZero
      else { s with
        cel := BitVec.ofNat 32 ((s.reg ra).toNat / (s.reg rb).toNat)
        ceh := BitVec.ofNat 32 ((s.reg ra).toNat % (s.reg rb).toNat) }.advance 4) := rfl

/-- A number that is at most one word is the value of its word. -/
theorem toNat_ofNat_of_le {n : Nat} {a : Word} (h : n ≤ a.toNat) : (BitVec.ofNat 32 n).toNat = n :=
  (BitVec.toNat_ofNat n 32).trans (Nat.mod_eq_of_lt (h.trans_lt a.isLt))

/-- Settles O49: the three branches of `exec_div` and the two of `exec_divu`; quotient and remainder fit their words. -/
theorem divisions : Obligations.Divisions := by
  unfold Obligations.Divisions
  intro s ra rb a b overflows
  refine ⟨fun hb hfits => ?signed, fun hover => ?overflow, fun hb => ?unsigned, fun hb i hi => ?byZero⟩
  case signed =>
    refine ⟨wrap32 (a.toInt.tdiv b.toInt), wrap32 (a.toInt.tmod b.toInt), ?equation, ?smaller, ?nonneg, ?nonpos,
      ?exec⟩
    case exec =>
      rw [exec_div, if_neg hb, if_neg (mt (quotient_overflows_iff a b).2 hfits)]
      rfl
    all_goals rw [wrap32_tmod_toInt]
    case equation => rw [wrap32_tdiv_toInt hfits, Int.mul_tdiv_add_tmod]
    case smaller =>
      have hpos : 0 < b.toInt.natAbs := Int.natAbs_pos.2 (mt (BitVec.toInt_inj (y := 0)).1 hb)
      rw [Int.natAbs_tmod]
      exact Nat.mod_lt _ hpos
    case nonneg => exact Int.tmod_nonneg _
    case nonpos => exact tmod_nonpos _
  case overflow =>
    have hwords := (quotient_overflows_iff a b).1 hover
    have hb : b ≠ 0 := by
      rw [hwords.2]
      decide
    have hdrawn : exec (.div ra rb) s = .next (s.drawAcc.advance 4) := by
      rw [exec_div, if_neg hb, if_pos hwords]
    exact ⟨_, _, _, hdrawn⟩
  case unsigned =>
    refine ⟨BitVec.ofNat 32 (a.toNat / b.toNat), BitVec.ofNat 32 (a.toNat % b.toNat), ?equation, ?smaller, ?exec⟩
    case exec =>
      rw [exec_divu, if_neg hb]
      rfl
    all_goals rw [toNat_ofNat_of_le (Nat.mod_le a.toNat b.toNat)]
    case equation => rw [toNat_ofNat_of_le (Nat.div_le_self a.toNat b.toNat), Nat.div_add_mod]
    case smaller => exact Nat.mod_lt _ (Nat.pos_of_ne_zero (mt (BitVec.toNat_inj (y := 0)).1 hb))
  case byZero =>
    have hzero : exec i s = .next s.dividedByZero := by
      simp only [List.mem_cons, List.not_mem_nil, or_false] at hi
      rcases hi with rfl | rfl
      · rw [exec_div, if_pos hb]
      · rw [exec_divu, if_pos hb]
    exact ⟨_, _, _, hzero⟩

/-! ## The moves (R370 to R381) -/

/-- `mfcehl` writes its two registers as a load that updates its base does: one register for both is UNDEFINED (R374). -/
theorem exec_mfcehl (s : State) (rd ra : Reg) :
    exec (.mfcehl rd ra) s = .next ((s.setLoadedBase rd ra s.ceh s.cel).advance 4) := rfl

/-- Settles O53: each move is one register write; what is UNDEFINED is drawn. -/
theorem customEngineMoves : Obligations.CustomEngineMoves := by
  unfold Obligations.CustomEngineMoves
  intro s rd ra at4
  refine ⟨rfl, rfl, fun hne => ?distinct, fun heq => ?same, ⟨_, _, rfl⟩, rfl, rfl, rfl, ⟨_, _, _, rfl⟩,
    rfl, rfl, rfl, rfl, rfl, rfl⟩
  case distinct =>
    rw [exec_mfcehl, setLoadedBase_ne hne]
    rfl
  case same =>
    obtain ⟨x, k, hx⟩ := setLoadedBase_undefined (s := s) (base := s.cel) heq s.ceh
    refine ⟨x, k, ?_⟩
    rw [exec_mfcehl, hx]
    rfl

/-! ## `ceinst` (R395) -/

section ceinst

variable {s : State} {func5 : BitVec 5} (ra rb : Reg) (usd1 usd2 : BitVec 5)

theorem exec_ceinst_missing (h : s.cfg.ceImplemented.getLsbD func5.toNat = false) :
    exec (.ceinst func5 ra rb usd1 usd2) s = .next (s.raise .ri) :=
  next_of_eq (if_pos (by rw [h]; rfl))

theorem exec_ceinst_implemented (h : s.cfg.ceImplemented.getLsbD func5.toNat = true) {r : CeResult}
    (hr : Config.ceInstStep func5 (s.reg ra) (s.reg rb) usd1 usd2 s.ceh s.cel = r) :
    exec (.ceinst func5 ra rb usd1 usd2) s =
      .next (if r.raises then (s.applyCe usd1 usd2 r).raise .cee else (s.applyCe usd1 usd2 r).advance 4) :=
  hr ▸ next_of_eq (if_neg (by rw [h]; decide))

end ceinst

/-- Settles O54: what the custom engine writes leaves pc alone, so that CeE and the next instruction are those of `ceinst` itself. -/
theorem customEngineFunction : Obligations.CustomEngineFunction := by
  unfold Obligations.CustomEngineFunction
  intro s func5 ra rb usd1 usd2 r given t
  have happly : s.applyCe usd1 usd2 r = t := rfl
  have hpc : t.pc = s.pc := (applyCe_same s usd1 usd2 r).pc
  refine ⟨exec_ceinst_missing ra rb usd1 usd2, fun himplemented => ?_⟩
  rw [exec_ceinst_implemented ra rb usd1 usd2 himplemented rfl, happly, State.raise, State.advance, hpc]

end Sys2Proof.Machine
end

section
/-! PROOFS. The system instructions, the moves to and from the control registers, and the software breakpoints (44_system_cop_ce_32.md sections 5 and 8, 60_exceptions.md R715). -/

namespace Sys2Proof.Machine

theorem controlled_privileged {s : State} (h : s.privileged = true) (effect : State) :
    s.controlled effect = effect := if_pos h

/-! ## System instructions (R400, R405 to R409) -/

/-- `trap{cond}` where it is privileged (R405). -/
theorem exec_trapCond_privileged {s : State} (hp : s.privileged = true) (c : Cond) (imm : BitVec 5) :
    exec (.trapCond c imm) s = .next (if c ≠ .cnz ∧ s.holds c then s.raise .trap else s.advance 4) :=
  next_of_eq (controlled_privileged hp _)

theorem exec_drte_privileged {s : State} (hp : s.privileged = true) : exec .drte s = .next s.returnFromDebug :=
  next_of_eq (controlled_privileged hp _)

/-- Settles O56: where they are privileged the control instructions have their effects; CNZ is the one condition that never traps. -/
theorem systemInstructions : Obligations.SystemInstructions := by
  unfold Obligations.SystemInstructions
  intro s imm15 c imm5
  refine ⟨rfl, fun hp => ⟨fun hc h => ?traps, fun h => ?passes, next_of_eq (controlled_privileged hp _),
    exec_drte_privileged hp, next_of_eq (controlled_privileged hp _)⟩⟩
  case traps =>
    rw [exec_trapCond_privileged hp, if_pos ⟨hc, h⟩]
    rfl
  case passes =>
    have hnot : ¬(c ≠ .cnz ∧ s.holds c = true) := not_and_or.2 (h.imp not_not_intro ne_true_of_eq_false)
    rw [exec_trapCond_privileged hp, if_neg hnot]
    rfl

/-! ## Software breakpoints (R408, R480, R715) -/

/-- A software breakpoint raises DBp, whatever it was, and leaves BrkSt as it was or raises it. -/
theorem debugEnter_breakpoint (s : State) (brkSt : Bool) :
    s.debugEnter true brkSt = { s with
      depc := s.pc, pc := s.debugVector
      dreg := { s.dreg with dm := true, dbp := true, brkSt := brkSt || s.dreg.brkSt } } := by
  rw [State.debugEnter, Bool.or_true, Bool.or_comm]

/-- The debug vector without a probe, as a number. -/
theorem debugVector_toNat {s : State} (h : ¬(s.cfg.iceEnable = true ∧ s.cfg.sjProbeEn = true)) :
    s.debugVector.toNat = s.excpVec.toNat / 2 ^ 16 * 2 ^ 16 + 0x01FC := by
  have hbound := s.excpVec.isLt
  have hvector : s.debugVector = s.excpVec.extractLsb' 16 16 ++ 0x01FC#16 := if_neg (by simpa using h)
  rw [hvector]
  refine (toNat_append_of_lt _ _).trans ?_
  rw [BitVec.extractLsb'_toNat, Nat.shiftRight_eq_div_pow, Nat.mod_eq_of_lt (by omega)]
  rfl

/-- Settles O9: the entry is `State.debugEnter`; the state after it is in Debug Mode, so that `drte` is privileged there. -/
theorem debugEntryAndReturn : Obligations.DebugEntryAndReturn := by
  unfold Obligations.DebugEntryAndReturn
  intro s code entered
  have hentered (b : Bool) : s.debugEnter true b = entered b := debugEnter_breakpoint s b
  refine ⟨fun houtside => ?outside, fun hinside => ⟨next_of_eq (if_pos hinside), next_of_eq (if_pos hinside)⟩,
    fun h => ?probe, debugVector_toNat⟩
  case outside =>
    have hnot : ¬s.dreg.dm = true := Bool.not_eq_true _ ▸ houtside
    refine ⟨next_of_eq ((if_neg hnot).trans (hentered false)), next_of_eq ((if_neg hnot).trans (hentered true)),
      fun b => ?_⟩
    have hp : (entered b).privileged = true := by simp [State.privileged, entered]
    exact exec_drte_privileged hp
  case probe => exact if_pos (by simp [h])

/-! ## `mtcr` (R383) -/

theorem exec_mtcr_privileged {s : State} (hp : s.privileged = true) (rd : Reg) (n : BitVec 5) :
    exec (.mtcr rd n) s = .next ((s.setControlReg n (s.reg rd)).advance 4) :=
  next_of_eq (controlled_privileged hp _)

/-- cr18 and the unnamed registers ignore a write (R50, R53). -/
theorem setControlReg_ignored {n : BitVec 5} (hn : n.toNat ∉ [0, 1, 2, 3, 4, 5, 6, 15, 16, 29, 30, 31]) (s : State)
    (w : Word) : s.setControlReg n w = s := by
  simp only [List.mem_cons, List.not_mem_nil, or_false, not_or] at hn
  unfold State.setControlReg
  split
  case h_13 => rfl
  all_goals omega

/-- A write of ECR takes IM from its place; Exc_code is the launch's choice (log 15). -/
theorem setEcr_eq (s : State) (w : Word) :
    ∃ code rest, s.setEcr w = { s with
      ecr := { excCode := code, im := w.extractLsb' s.cfg.layout.im 16, rest := rest } } := by
  unfold State.setEcr
  cases s.cfg.excCodeWritable
  · exact ⟨_, _, rfl⟩
  · exact ⟨_, _, rfl⟩

/-- Settles O57: where it is privileged `mtcr` is `State.setControlReg`, one case for each register. -/
theorem moveToControlRegister : Obligations.MoveToControlRegister := by
  unfold Obligations.MoveToControlRegister
  intro s rd hp v l at4 bits
  have hmtcr {n : BitVec 5} {t : State} (ht : s.setControlReg n v = t) (hpc : t.pc = s.pc) :
      exec (.mtcr rd n) s = .next (at4 t) := by
    rw [exec_mtcr_privileged hp, ht, State.advance, hpc]
  refine ⟨⟨_, hmtcr rfl rfl⟩, ⟨_, hmtcr rfl rfl⟩, ?ecr, hmtcr rfl rfl, hmtcr rfl rfl, hmtcr rfl rfl, hmtcr rfl rfl,
    hmtcr rfl rfl, hmtcr rfl rfl, ⟨_, hmtcr rfl rfl⟩, hmtcr rfl rfl, hmtcr rfl rfl,
    fun n hn => hmtcr (setControlReg_ignored hn s v) rfl⟩
  case ecr =>
    obtain ⟨code, rest, hecr⟩ := setEcr_eq s v
    exact ⟨code, rest, hmtcr hecr rfl⟩

/-! ## `mfcr` (R382) -/

/-- The bits of a word with one-bit fields laid over a remainder: the remainder's, and every field's value at its place. -/
def Overlays (fields : List (Bool × Nat)) (rest v : Word) : Prop :=
  ∀ j, v.getLsbD j = (rest.getLsbD j || fields.any fun f => f.1 && decide (f.2 = j))

namespace Overlays

variable {fields : List (Bool × Nat)} {rest v : Word}

theorem nil (rest : Word) : Overlays [] rest rest := fun j => by simp

/-- More fields are laid over by `|||`. -/
theorem or {more : List (Bool × Nat)} {w : Word} (h : Overlays fields rest v)
    (hw : ∀ j, w.getLsbD j = more.any fun f => f.1 && decide (f.2 = j)) :
    Overlays (fields ++ more) rest (v ||| w) := fun j => by
  rw [BitVec.getLsbD_or, h j, hw j, List.any_append, Bool.or_assoc]

/-- A bit at no field's place is the remainder's. -/
theorem getLsbD_of_ne (h : Overlays fields rest v) {j : Nat} (hj : ∀ f ∈ fields, f.2 ≠ j) :
    v.getLsbD j = rest.getLsbD j := by
  have hnone : (fields.any fun f => f.1 && decide (f.2 = j)) = false :=
    List.any_eq_false.2 fun f hf => by simp [hj f hf]
  rw [h j, hnone, Bool.or_false]

/-- Where no two fields share a place and the remainder is clear there, the bit at a field's place is the field's. -/
theorem getLsbD_place (h : Overlays fields rest v) (hnodup : (fields.map Prod.snd).Nodup)
    {f : Bool × Nat} (hf : f ∈ fields) (hclear : rest.getLsbD f.2 = false) : v.getLsbD f.2 = f.1 := by
  have hfield : (fields.any fun g => g.1 && decide (g.2 = f.2)) = f.1 := by
    rw [Bool.eq_iff_iff, List.any_eq_true]
    refine ⟨fun ⟨g, hg, hbit⟩ => ?_, fun hbit => ⟨f, hf, by simp [hbit]⟩⟩
    obtain ⟨hbit, hplace⟩ := Bool.and_eq_true_iff.1 hbit
    exact List.inj_on_of_nodup_map hnodup hg hf (of_decide_eq_true hplace) ▸ hbit
  rw [h f.2, hclear, hfield, Bool.false_or]

end Overlays

/-- The bits of a field of `n` bits put at its place. -/
theorem shiftLeft_getLsbD_eq_any {n : Nat} (x : BitVec n) {p : Nat} (hp : p + n ≤ 32) (j : Nat) :
    (x.setWidth 32 <<< p).getLsbD j =
      ((List.range n).map fun k => (x.getLsbD k, p + k)).any fun f => f.1 && decide (f.2 = j) := by
  rw [Bool.eq_iff_iff, List.any_map, List.any_eq_true]
  simp only [BitVec.getLsbD_shiftLeft, BitVec.getLsbD_setWidth, Bool.and_eq_true, Bool.not_eq_true',
    decide_eq_true_eq, decide_eq_false_iff_not, List.mem_range, Function.comp_apply]
  constructor
  · rintro ⟨⟨-, hle⟩, -, hbit⟩
    exact ⟨j - p, BitVec.lt_of_getLsbD hbit, hbit, by omega⟩
  · rintro ⟨k, hk, hbit, rfl⟩
    rw [Nat.add_sub_cancel_left]
    exact ⟨⟨by omega, by omega⟩, by omega, hbit⟩

theorem overlays_psrImage (l : PsrLayout) (p : Psr) :
    Overlays [(p.umc, l.umc.val), (p.ums, l.ums.val), (p.iec, l.iec.val), (p.ies, l.ies.val), (p.cra, l.cra.val),
      (p.cu1, l.cu1.val), (p.cu2, l.cu2.val), (p.cu3, l.cu3.val)] p.rest (psrImage l p) := fun j => by
  simp only [psrImage, BitVec.getLsbD_or, bitAt_getLsbD, List.any_cons, List.any_nil, Bool.or_false, Bool.or_assoc]

theorem overlays_dregImage (l : CrLayout) (d : Dreg) :
    Overlays [(d.dm, l.dm.val), (d.dbp, l.dbp.val), (d.brkSt, l.brkSt.val)] d.rest (dregImage l d) := fun j => by
  simp only [dregImage, BitVec.getLsbD_or, bitAt_getLsbD, List.any_cons, List.any_nil, Bool.or_false, Bool.or_assoc]

theorem flagsImage_getLsbD_eq_any (l : FlagLayout) (f : Flags) (j : Nat) :
    (flagsImage l f).getLsbD j =
      [(f.n, l.n.val), (f.z, l.z.val), (f.c, l.c.val), (f.v, l.v.val), (f.t, l.t.val)].any
        fun f => f.1 && decide (f.2 = j) := by
  simp only [flagsImage, BitVec.getLsbD_or, bitAt_getLsbD, List.any_cons, List.any_nil, Bool.or_false, Bool.or_assoc]

section mfcr

variable {s : State} (hp : s.privileged = true) (rd : Reg) {n : BitVec 5}
include hp

/-- `mfcr` of a named register gives its image (R382). -/
theorem exec_mfcr_named {v : Word} (hv : s.controlReg n = some v) :
    exec (.mfcr rd n) s = .next { s.setReg rd v with pc := s.pc + 4 } := by
  refine next_of_eq ((controlled_privileged hp _).trans ?_)
  rw [hv]
  rfl

/-- `mfcr` of an unnamed register gives a free value (R53; log 26). -/
theorem exec_mfcr_unnamed (hnone : s.controlReg n = none) :
    exec (.mfcr rd n) s = .next ((s.drawReg rd).advance 4) := by
  refine next_of_eq ((controlled_privileged hp _).trans ?_)
  rw [hnone]

end mfcr

/-- The registers without a name (R53). -/
theorem controlReg_unnamed {n : BitVec 5} (hn : n.toNat ∉ [0, 1, 2, 3, 4, 5, 6, 15, 16, 18, 29, 30, 31]) (s : State) :
    s.controlReg n = none := by
  simp only [List.mem_cons, List.not_mem_nil, or_false, not_or] at hn
  unfold State.controlReg
  split
  case h_14 => rfl
  all_goals omega

/-- Settles O58: `mfcr` gives the image of a named register; the packed images lay their fields over the remainder. -/
theorem moveFromControlRegister : Obligations.MoveFromControlRegister := by
  unfold Obligations.MoveFromControlRegister
  intro s rd hp l gets holds flags
  have hgets {n : BitVec 5} {v : Word} (hv : s.controlReg n = some v) : gets n v := exec_mfcr_named hp rd hv
  have hholds {fields : List (Bool × Nat)} {rest v : Word} (h : Overlays fields rest v) : holds fields rest v :=
    fun hnodup hclear => ⟨fun f hf => h.getLsbD_place hnodup hf (hclear f hf), fun _ => h.getLsbD_of_ne⟩
  have hcondition : Overlays (flags l.current s.flags ++ flags l.saved s.savedFlags) s.condRest s.conditionImage :=
    ((Overlays.nil _).or (flagsImage_getLsbD_eq_any l.current s.flags)).or
      (flagsImage_getLsbD_eq_any l.saved s.savedFlags)
  have hecr : Overlays ((List.range 5).map (fun j => (s.ecr.excCode.getLsbD j, l.excCode.val + j)) ++
      (List.range 16).map (fun j => (s.ecr.im.getLsbD j, l.im.val + j))) s.ecr.rest (ecrImage l s.ecr) :=
    ((Overlays.nil _).or (shiftLeft_getLsbD_eq_any s.ecr.excCode (by omega))).or
      (shiftLeft_getLsbD_eq_any s.ecr.im (by omega))
  refine ⟨⟨_, hgets rfl, hholds (overlays_psrImage l.psr s.psr)⟩, ⟨_, hgets rfl, hholds hcondition⟩,
    ⟨_, hgets rfl, hholds hecr⟩, ⟨_, hgets rfl, hholds (overlays_dregImage l s.dreg)⟩,
    hgets rfl, hgets rfl, hgets rfl, hgets rfl, hgets rfl, hgets rfl, hgets rfl, hgets rfl, hgets rfl,
    fun n hn => ⟨_, _, exec_mfcr_unnamed hp rd (controlReg_unnamed hn s)⟩⟩

end Sys2Proof.Machine
end

section
/-! PROOFS. The coprocessor instructions (44_system_cop_ce_32.md section 6). -/

namespace Sys2Proof.Machine

/-! ## The checks (R385) -/

section checks

variable {s : State} {n : BitVec 2} (hn : n ≠ 0)
include hn

/-- Without the CU bit: CCU, in every mode. -/
theorem coprocessed_unusable (hu : s.copUsable n = false) (effect : State) :
    s.coprocessed n effect = s.raise .ccu := by
  rw [State.coprocessed, if_neg hn, hu]
  rfl

/-- With the CU bit, but without a coprocessor that answers: RI. -/
theorem coprocessed_absent (hu : s.copUsable n = true) (hp : s.copPresent n = false) (effect : State) :
    s.coprocessed n effect = s.raise .ri := by
  rw [State.coprocessed, if_neg hn, hu, hp]
  rfl

end checks

/-- The coprocessors there are. -/
theorem cop_number_cases {n : BitVec 2} (hn : n ≠ 0) : n = 1 ∨ n = 2 ∨ n = 3 := by
  revert n
  decide

section numbered

variable (s : State) {n : BitVec 2} (hn : n ≠ 0)
include hn

theorem copUsable_eq : s.copUsable n = if n = 1 then s.psr.cu1 else if n = 2 then s.psr.cu2 else s.psr.cu3 := by
  rcases cop_number_cases hn with rfl | rfl | rfl <;> rfl

theorem copPresent_eq :
    s.copPresent n = if n = 1 then s.cfg.hasCop1 else if n = 2 then s.cfg.hasCop2 else s.cfg.hasCop3 := by
  rcases cop_number_cases hn with rfl | rfl | rfl <;> rfl

theorem cop_eq : s.cop n = if n = 1 then s.cop1 else if n = 2 then s.cop2 else s.cop3 := by
  rcases cop_number_cases hn with rfl | rfl | rfl <;> rfl

theorem setCop_eq (f : CopFile) :
    s.setCop n f = if n = 1 then { s with cop1 := f } else if n = 2 then { s with cop2 := f }
      else { s with cop3 := f } := by
  rcases cop_number_cases hn with rfl | rfl | rfl <;> rfl

end numbered

/-! ## The instructions, behind the checks (R386 to R392) -/

/-- What the instruction does where the coprocessor is usable and answers: it is `effect` behind the checks of R385. -/
def Coprocesses (s : State) (n : BitVec 2) (i : Instr) (effect : State) : Prop :=
  exec i s = .next (s.coprocessed n effect)

namespace Coprocesses

variable {s effect : State} {n : BitVec 2} {i : Instr} (h : Coprocesses s n i effect) (hn : n ≠ 0)
include h hn

theorem raises_ccu (hu : s.copUsable n = false) : exec i s = .next (s.enter .ccu s.pc none) :=
  h.trans (congrArg _ (coprocessed_unusable hn hu effect))

theorem raises_ri (hu : s.copUsable n = true) (hp : s.copPresent n = false) :
    exec i s = .next (s.enter .ri s.pc none) :=
  h.trans (congrArg _ (coprocessed_absent hn hu hp effect))

theorem completes (hu : s.copUsable n = true) (hp : s.copPresent n = true) : exec i s = .next effect :=
  h.trans (congrArg _ (coprocessed_usable hn hu hp effect))

end Coprocesses

/-- Settles O55: all seven stand behind the checks of R385; the register files are those of the coprocessor's number. -/
theorem coprocessors : Obligations.Coprocessors := by
  unfold Obligations.Coprocessors
  intro s n rd cra imm code hn cu has file put ea r all
  have hcu : s.copUsable n = cu := copUsable_eq s hn
  have hhas : s.copPresent n = has := copPresent_eq s hn
  have hfile : s.cop n = file := cop_eq s hn
  have hput (f : CopFile) : s.setCop n f = put f := setCop_eq s hn f
  have hputPc (f : CopFile) : (put f).pc = s.pc := hput f ▸ (setCop_same s n f).pc
  have hea : s.reg rd + copOffset imm = ea := by rw [copOffset_eq]
  have hall : ∀ i ∈ all, ∃ effect, Coprocesses s n i effect := by
    simp only [all, List.forall_mem_cons]
    exact ⟨⟨_, rfl⟩, ⟨_, rfl⟩, ⟨_, rfl⟩, ⟨_, rfl⟩, ⟨_, rfl⟩, ⟨_, rfl⟩, ⟨_, rfl⟩, List.forall_mem_nil _⟩
  refine ⟨fun hu i hi => ?ccu, fun hu hp i hi => ?ri, fun hu hp => ?effects⟩
  case ccu =>
    obtain ⟨effect, heffect⟩ := hall i hi
    exact heffect.raises_ccu hn (hcu.trans hu)
  case ri =>
    obtain ⟨effect, heffect⟩ := hall i hi
    exact heffect.raises_ri hn (hcu.trans hu) (hhas.trans hp)
  case effects =>
    have husable : s.copUsable n = true := hcu.trans hu
    have hpresent : s.copPresent n = true := hhas.trans hp
    have hdoes {i : Instr} {effect t : State} (h : Coprocesses s n i effect) (ht : effect = t) :
        exec i s = .next t := (h.completes hn husable hpresent).trans (congrArg _ ht)
    have hwritten {f g : CopFile} (hfg : f = g) : (s.setCop n f).advance 4 = { put g with pc := s.pc + 4 } := by
      rw [hfg, hput, State.advance, hputPc]
    have hdata (v : Word) : { s.cop n with data := fileSet (s.cop n).data cra v } =
        { file with data := fileSet file.data cra v } := by rw [hfile]
    have hctrl (v : Word) : { s.cop n with ctrl := fileSet (s.cop n).ctrl cra v } =
        { file with ctrl := fileSet file.ctrl cra v } := by rw [hfile]
    let stored := s.stored .word ea (fileGet file.data cra)
    refine ⟨hdoes rfl (hwritten (hdata _)), hdoes rfl ?mfc, hdoes rfl (hwritten (hctrl _)), hdoes rfl ?mfcc,
      hdoes rfl ?cop, fun ha hm => hdoes rfl ?ldc, fun ha hm hwf =>
        ⟨stored.advance 4, hdoes rfl ?stc, rfl, ?stored, ?kept⟩,
      fun ha => ⟨?ldcMisaligned, ?stcMisaligned⟩⟩
    case mfc =>
      rw [hfile]
      rfl
    case mfcc =>
      rw [hfile]
      rfl
    case cop =>
      dsimp only
      rw [hfile, hput, State.raise, State.advance, hputPc]
    case ldc =>
      dsimp only
      rw [hea, accessed_allowed ha hm, hwritten (hdata _)]
      rfl
    case stc =>
      dsimp only
      rw [hea, accessed_allowed ha hm, hfile]
    case stored => exact (word_of_mem_eq (t := stored) rfl rfl ea).trans (word_stored_word ea _ hwf)
    case kept => exact fun x hx => (byte_of_mem_eq (t := stored) rfl x).trans (byte_stored_outside .word ea _ hwf hx)
    case ldcMisaligned =>
      exact (Accesses.at_address (.ldc hn husable hpresent rd cra imm) hea).raises_of_misaligned ha
    case stcMisaligned =>
      exact (Accesses.at_address (.stc hn husable hpresent rd cra imm) hea).raises_of_misaligned ha

end Sys2Proof.Machine
end

section
/-! PROOFS. The arithmetic, logical and shift instructions of the 16-bit set (45_16bit.md). -/

namespace Sys2Proof.Machine

/-! ## Sums and differences as operations on words (R425 to R430) -/

theorem sum_false (a b : Word) : sum a b false = a + b := by simp [sum]

theorem sum_eq_ofNat (a b : Word) (c : Bool) : sum a b c = BitVec.ofNat 32 (a.toNat + b.toNat + c.toNat) := by
  rw [sum_eq, ← BitVec.ofInt_natCast]
  push_cast
  rfl

theorem difference_true (a b : Word) : difference a b true = a - b := by simp [difference]

/-! ## Flags outside the set that an instruction writes (R421) -/

theorem FlagWrite.apply_of_keep {w : FlagWrite} (h : w = .keep) (old free : Bool) : w.apply old free = old := by
  rw [h]
  rfl

/-- Settles O59: every one of them writes its result and draws the flags of its set, which is NZCV for arithmetic, NZ for logic and NZC for shifts. -/
theorem shortArithmetic : Obligations.ShortArithmetic := by
  unfold Obligations.ShortArithmetic
  intro s rd ra exp sa a d m gives
  have hgives {i : Instr} {r r' : Word} {u : FlagUpdate} {keepsC keepsV : Bool}
      (hexec : exec i s = .next (s.computed (g0 rd) r u 2)) (hr : r = r') (ht : u.t = .keep)
      (hc : keepsC = true → u.c = .keep) (hv : keepsV = true → u.v = .keep) : gives i r' keepsC keepsV := by
    subst hr
    obtain ⟨k, hk⟩ := computed_onCu_draws s (g0 rd) r true u 2
    exact ⟨u.flags s.flags (Config.freeFlags s.free), k, FlagWrite.apply_of_keep ht _ _,
      fun h => FlagWrite.apply_of_keep (hc h) _ _, fun h => FlagWrite.apply_of_keep (hv h) _ _,
      hexec.trans (congrArg _ hk)⟩
  have harith {i : Instr} {r r' : Word} (hexec : exec i s = .next (s.computed (g0 rd) r undefNzcv 2))
      (hr : r = r') : gives i r' false false := hgives hexec hr rfl nofun nofun
  have hlogic {i : Instr} {r : Word} (hexec : exec i s = .next (s.computed (g0 rd) r undefNz 2)) :
      gives i r true true := hgives hexec rfl rfl (fun _ => rfl) (fun _ => rfl)
  have hshift {i : Instr} {r r' : Word} (hexec : exec i s = .next (s.computed (g0 rd) r undefNzc 2))
      (hr : r = r') : gives i r' false true := hgives hexec hr rfl nofun (fun _ => rfl)
  have hpower : powerOfTwo exp = BitVec.ofNat 32 (2 ^ exp.toNat) := powerOfTwo_eq exp
  have hm : (amount a).toNat = m := amount_toNat a
  exact ⟨harith rfl (sum_false d a), harith rfl (sum_eq_ofNat d a s.flags.c), harith rfl (difference_true d a),
    harith rfl ((difference_true 0 a).trans (zero_sub a)),
    harith rfl ((sum_false d _).trans (congrArg (d + ·) hpower)),
    harith rfl ((difference_true d _).trans (congrArg (d - ·) hpower)),
    hlogic rfl, hlogic rfl, hlogic rfl, hlogic rfl,
    hshift rfl (shiftLeft_eq d hm), hshift rfl (shiftLeft_eq d rfl),
    hshift rfl (shiftRight_eq d hm), hshift rfl (shiftRight_eq d rfl), hshift rfl (shiftRightArith_eq d hm)⟩

end Sys2Proof.Machine
end

section
/-! PROOFS. The enhanced multiply-accumulate instructions with their 16-bit forms (47_enhanced_mac.md sections 3 to 6). -/

namespace Sys2Proof.Machine

/-! ## The halves of a register and clamping as numbers (R541) -/

theorem lo16s_eq (x : Word) : lo16s x = (BitVec.ofNat 16 x.toNat).toInt := rfl

theorem hi16s_eq (x : Word) : hi16s x = (BitVec.ofNat 16 (x.toNat / 2 ^ 16)).toInt := by
  rw [hi16s, BitVec.extractLsb', Nat.shiftRight_eq_div_pow]

/-- Where CEL and CEH are written, the clamped number is taken as a word (R543). -/
theorem sat32_eq (v : Int) : sat32 v = BitVec.ofInt 32 (Max.max (-2 ^ 31) (Min.min (2 ^ 31 - 1) v)) := by
  rw [← sat32_toInt, BitVec.ofInt_toInt]

/-- Clamping leaves a value that a word holds as it is. -/
theorem sat32_toInt_self (a : Word) : sat32 a.toInt = a := by
  have hmin : -2 ^ 31 ≤ a.toInt := a.le_toInt
  have hmax : a.toInt < 2 ^ 31 := a.toInt_lt
  rw [sat32, if_neg (by omega), if_neg (by omega), wrap32, BitVec.ofInt_toInt]

/-! ## The 16-bit by 16-bit accumulations (R555 to R572) -/

/-- Settles O50: each instruction wraps or clamps a function of the product of the halves; both write one half of the accumulator. -/
theorem halfAccumulations : Obligations.HalfAccumulations := by
  unfold Obligations.HalfAccumulations
  intro s ra rb fr p q low high clamped
  have hp : lowProduct (s.reg ra) (s.reg rb) = p := rfl
  have hq : highProduct (s.reg ra) (s.reg rb) = q := congrArg₂ (· * ·) (hi16s_eq _) (hi16s_eq _)
  have hlow {i : Instr} (f : Int → Int)
      (hexec : exec i s = .next ({ s with cel := wrap32 (f (lowProduct (s.reg ra) (s.reg rb))) }.advance 4)) :
      low i (f p) := ⟨_, congrArg (fun x => wrap32 (f x)) hp, hexec⟩
  have hlowClamped {i : Instr} (f : Int → Int)
      (hexec : exec i s = .next ({ s with cel := sat32 (f (lowProduct (s.reg ra) (s.reg rb))) }.advance 4)) :
      low i (clamped (f p)) := ⟨_, hp ▸ sat32_eq _, hexec⟩
  have hhigh {i : Instr} (f : Int → Int)
      (hexec : exec i s = .next ({ s with ceh := wrap32 (f (highProduct (s.reg ra) (s.reg rb))) }.advance 4)) :
      high i (f q) := ⟨_, congrArg (fun x => wrap32 (f x)) hq, hexec⟩
  have hhighClamped {i : Instr} (f : Int → Int)
      (hexec : exec i s = .next ({ s with ceh := sat32 (f (highProduct (s.reg ra) (s.reg rb))) }.advance 4)) :
      high i (clamped (f q)) := ⟨_, hq ▸ sat32_eq _, hexec⟩
  exact ⟨hlow id rfl, hlow s.fr rfl, hlow (s.cel.toInt + ·) rfl, hlowClamped (fun x => s.cel.toInt + s.fr x) rfl,
    hlow (-·) rfl, hlow (fun x => -s.fr x) rfl, hlow (s.cel.toInt - ·) rfl,
    hlowClamped (fun x => s.cel.toInt - s.fr x) rfl,
    hhigh id rfl, hhigh s.fr rfl, hhigh (s.ceh.toInt + ·) rfl, hhighClamped (fun x => s.ceh.toInt + s.fr x) rfl,
    hhigh (-·) rfl, hhigh (fun x => -s.fr x) rfl, hhigh (s.ceh.toInt - ·) rfl,
    hhighClamped (fun x => s.ceh.toInt - s.fr x) rfl⟩

/-! ## Minimum, maximum and absolute value as signed integers (R573, R574, R577, R578) -/

theorem toInt_smaller (a b : Word) : (if a.toInt ≤ b.toInt then a else b).toInt = Min.min a.toInt b.toInt := by
  rw [apply_ite BitVec.toInt, min_def]

theorem toInt_larger (a b : Word) : (if b.toInt ≤ a.toInt then a else b).toInt = Max.max a.toInt b.toInt := by
  rw [apply_ite BitVec.toInt, max_comm, max_def]

theorem negated_if_negative_eq_abs (a : Word) : (if 0 ≤ a.toInt then a else 0 - a) = a.abs := by
  rw [BitVec.abs, msb_eq_neg, zero_sub]
  by_cases h : a.toInt < 0
  · rw [if_neg (by omega), if_pos (decide_eq_true h)]
    rfl
  · rw [if_pos (by omega), if_neg (mt of_decide_eq_true h)]

/-- The absolute value of the smallest word does not fit, and is that word again (R577). -/
theorem toInt_abs_word (a : Word) : a.abs.toInt = if a.toInt = -2 ^ 31 then a.toInt else |a.toInt| := by
  have hsmallest : a = BitVec.intMin 32 ↔ a.toInt = -2 ^ 31 := (BitVec.toInt_inj (y := BitVec.intMin 32)).symm
  rw [BitVec.toInt_abs_eq_natAbs, Int.abs_eq_natAbs]
  by_cases h : a = BitVec.intMin 32
  · rw [if_pos h, if_pos (hsmallest.1 h), h]
  · rw [if_neg h, if_neg (mt hsmallest.2 h)]

theorem clamped_if_negative_eq_sat32 (a : Word) :
    (if 0 ≤ a.toInt then a else sat32 (0 - a.toInt)) = sat32 |a.toInt| := by
  split
  case isTrue h => rw [abs_of_nonneg h, sat32_toInt_self]
  case isFalse h => rw [abs_of_neg (not_le.1 h), zero_sub]

/-- Settles O51: every instruction writes one register; its value is a minimum, a maximum, an absolute value or a clamped number. -/
theorem saturatingInstructions : Obligations.SaturatingInstructions := by
  unfold Obligations.SaturatingInstructions
  intro s rd ra rb a b clamped gives
  have hgives {i : Instr} {r : Word} {v : Int} (hexec : exec i s = .next ((s.setReg rd r).advance 4))
      (hv : r.toInt = v) : gives i v := ⟨r, hv, hexec⟩
  have habs := congrArg BitVec.toInt (negated_if_negative_eq_abs (s.reg ra))
  have habsS := congrArg BitVec.toInt (clamped_if_negative_eq_sat32 (s.reg ra))
  have hamount : (amount (s.reg rb)).toNat = (s.reg rb).toNat % 32 := amount_toNat _
  exact ⟨hgives rfl (toInt_smaller _ _), hgives rfl (toInt_larger _ _), hgives rfl (sat32_toInt (a + b)),
    hgives rfl (sat32_toInt (a - b)), hgives rfl (habs.trans (toInt_abs_word _)),
    hgives rfl (habsS.trans (sat32_toInt |a|)), hgives rfl (hamount ▸ sat32_toInt _)⟩

/-! ## Leading zeros and reversed bits (R579, R596) -/

theorem leadingZeros_le (x : Word) (n : Nat) : leadingZeros x n ≤ n := by
  induction n with
  | zero => exact Nat.le_refl 0
  | succ i ih =>
    rw [leadingZeros]
    split <;> omega

/-- The bits counted are 0. -/
theorem getLsbD_of_lt_leadingZeros (x : Word) {n j : Nat} (hj : j < leadingZeros x n) :
    x.getLsbD (n - 1 - j) = false := by
  induction n generalizing j with
  | zero => exact absurd hj (Nat.not_lt_zero j)
  | succ i ih =>
    rw [leadingZeros] at hj
    split at hj
    case isTrue h => exact absurd hj (Nat.not_lt_zero j)
    case isFalse h =>
      cases j with
      | zero => exact Bool.eq_false_of_not_eq_true h
      | succ k =>
        rw [show i + 1 - 1 - (k + 1) = i - 1 - k by omega]
        exact ih (Nat.lt_of_succ_lt_succ hj)

/-- The bit below the bits counted is 1, unless all are counted. -/
theorem getLsbD_leadingZeros (x : Word) {n : Nat} (hn : leadingZeros x n < n) :
    x.getLsbD (n - 1 - leadingZeros x n) = true := by
  induction n with
  | zero => exact absurd hn (Nat.not_lt_zero _)
  | succ i ih =>
    rw [leadingZeros] at hn ⊢
    split at hn
    case isTrue h => rwa [if_pos h]
    case isFalse h =>
      rw [if_neg h, show i + 1 - 1 - (leadingZeros x i + 1) = i - 1 - leadingZeros x i by omega]
      exact ih (Nat.lt_of_succ_lt_succ hn)

theorem countLeadingZeros_toNat (x : Word) : (countLeadingZeros x).toNat = leadingZeros x 32 := by
  have hle : leadingZeros x 32 ≤ 32 := leadingZeros_le x 32
  rw [countLeadingZeros, BitVec.toNat_ofNat, Nat.mod_eq_of_lt (by omega)]

theorem reverseAmount_toNat (rb : Reg) (v : Word) :
    (reverseAmount rb v).toNat = if rb = 0 then 0 else v.toNat % 32 := by
  rw [reverseAmount, apply_ite BitVec.toNat, amount_toNat]
  rfl

/-- The shift moves bit `j + n` to `j`, and the reversal filled that one from as far below bit 31 (R596). -/
theorem reversed_getLsbD (a : Word) (n : BitVec 5) (j : Nat) :
    (reversed a n).getLsbD j = if j + n.toNat < 32 then a.getLsbD (31 - (j + n.toNat)) else false := by
  rw [reversed, BitVec.getLsbD_ushiftRight, BitVec.getLsbD_reverse, BitVec.getMsbD_eq_getLsbD, Nat.add_comm]
  by_cases h : j + n.toNat < 32 <;> simp [h]

/-- Settles O52: the count by the three lemmas about `leadingZeros`, the reversal bit by bit. -/
theorem bitCounting : Obligations.BitCounting := by
  unfold Obligations.BitCounting
  intro s rd ra rb a
  refine ⟨⟨countLeadingZeros a, ?clz⟩, ⟨reversed a (reverseAmount rb (s.reg rb)), ?bitrev⟩⟩
  case clz =>
    rw [countLeadingZeros_toNat]
    exact ⟨leadingZeros_le a 32, fun _ hj => getLsbD_of_lt_leadingZeros a hj, getLsbD_leadingZeros a, rfl⟩
  case bitrev =>
    refine ⟨fun j _ => ?_, rfl⟩
    rw [reversed_getLsbD, reverseAmount_toNat]

/-! ## The 16-bit custom-engine instructions (R600) -/

/-- Two instructions that make the same update of everything but pc differ in the length they advance by. -/
theorem exec_short_of_long {s t : State} {long short : Instr}
    (hlong : exec long s = .next (t.advance 4)) (hshort : exec short s = .next (t.advance 2)) (hpc : t.pc = s.pc) :
    ∃ u, exec long s = .next u ∧ exec short s = .next { u with pc := s.pc + 2 } :=
  ⟨t.advance 4, hlong, by rw [hshort, ← hpc]; rfl⟩

/-- Settles O60: both forms make one update of the state, which leaves pc alone, and advance by their own length. -/
theorem shortCustomEngine : Obligations.ShortCustomEngine := by
  unfold Obligations.ShortCustomEngine
  intro s ra rb a b
  simp only [List.forall_mem_cons]
  refine ⟨?mtcel, ?mtceh, ?mfcel, ?mfceh, ?mulF, ?mulu, ?madF, ?madu, ?msbF, ?msbu, ?mazlF, ?mazhF, ?madlFs, ?madhFs,
    ?mszlF, ?mszhF, ?msblFs, ?msbhFs, List.forall_mem_nil _⟩
  all_goals exact exec_short_of_long rfl rfl rfl

end Sys2Proof.Machine
end

section
/-! PROOFS. Exceptions, interrupts and privilege (60_exceptions.md). -/

namespace Sys2Proof.Machine

/-! ## Privilege (R710, R712) -/

/-- `Privileged()` is everything but User mode outside Debug Mode with cra = 0 (R712). -/
theorem privileged_eq_false_iff {s : State} :
    s.privileged = false ↔ s.psr.umc = true ∧ s.dreg.dm = false ∧ s.psr.cra = false := by
  simp [State.privileged, and_assoc]

theorem controlled_unprivileged {s : State} (h : s.privileged = false) (effect : State) :
    s.controlled effect = s.raise .ccu := if_neg (Bool.not_eq_true _ ▸ h)

/-- Settles O10: each of the six is a `State.controlled` effect, which is CCU where the state is not privileged. -/
theorem controlInstructionsNeedPrivilege : Obligations.ControlInstructionsNeedPrivilege := by
  unfold Obligations.ControlInstructionsNeedPrivilege
  intro s c imm crn rd unprivileged
  refine ⟨fun hu => ?raises, ?privileged⟩
  case raises =>
    have hp : s.privileged = false := privileged_eq_false_iff.2 hu
    have hraises (effect : State) : (.next (s.controlled effect) : Result) = .next (s.raise .ccu) :=
      next_of_eq (controlled_unprivileged hp effect)
    simp only [List.forall_mem_cons]
    exact ⟨hraises _, hraises _, hraises _, hraises _, hraises _, hraises _, List.forall_mem_nil _⟩
  case privileged =>
    rw [← Bool.not_eq_false]
    exact not_congr privileged_eq_false_iff

/-! ## Entry and return (R691, R692, R700) -/

/-- Settles O7: field by field, by what each field is after `State.enter`. -/
theorem exceptionEntry : Obligations.ExceptionEntry := by
  unfold Obligations.ExceptionEntry
  intro s x epc addr t
  have hema : t.ema = (match addr with | some a => a | none => s.ema) := by cases addr <;> rfl
  have hsyscall (h : x = .syscall) : t.ecr.excCode = 7 := by subst h; rfl
  have htrap (h : x = .trap) : t.ecr.excCode = 10 := by subst h; rfl
  exact ⟨rfl, rfl, rfl, rfl, rfl, rfl, rfl, hema, rfl, hsyscall, htrap, rfl⟩

/-- Settles O8: the entry ends in Kernel mode, so that `rte` is privileged and returns. -/
theorem returnAfterEntry : Obligations.ReturnAfterEntry := by
  unfold Obligations.ReturnAfterEntry
  intro s x epc addr
  have hp : (s.enter x epc addr).privileged = true := by simp [State.privileged]
  have hreturns : exec .rte (s.enter x epc addr) = .next (s.enter x epc addr).returnFromException :=
    next_of_eq (controlled_privileged hp _)
  exact ⟨_, hreturns, rfl, rfl, rfl, rfl, rfl, rfl, rfl, rfl, rfl, rfl, rfl, rfl⟩

/-! ## The exceptions of the fetch (R684) -/

theorem step_awake {s : State} (hevent : s.tick.event s.now = none) (hawake : s.sleeping = false) :
    step s = fetchExec s.tick := by
  rw [step, hevent]
  exact if_neg (Bool.not_eq_true _ ▸ hawake)

section fetch

variable {s : State} {x : Exc}

theorem mapFault_addressError {k : AccessKind} {a : Word} (h : s.memMap a k = .addressError) :
    s.mapFault k a = some (addressErrorOf k) := by
  simp only [State.mapFault, h]

theorem mapFault_busError {k : AccessKind} {a : Word} (h : s.memMap a k = .busError) :
    s.mapFault k a = some (busErrorOf k) := by
  simp only [State.mapFault, h]

theorem fetchFault_odd {a : Word} (h : a.getLsbD 0 = true) : s.fetchFault a = some .adelInst := if_pos h

theorem fetchFault_even {a : Word} (h : ¬a.getLsbD 0 = true) : s.fetchFault a = s.mapFault .fetch a := if_neg h

/-- The first half-word cannot be fetched. -/
theorem fetchExec_fault_first (h : s.fetchFault s.pc = some x) : fetchExec s = .next (s.raiseAt x s.pc) := by
  simp only [fetchExec, State.fetched, h]

/-- The first half-word can be fetched and is the first half of a pair, and the second one cannot be fetched. -/
theorem fetchExec_fault_second (h : s.fetchFault s.pc = none) (hp : (s.half s.pc).getLsbD 15 = true)
    (h2 : s.mapFault .fetch (s.pc + 2) = some x) : fetchExec s = .next (s.raiseAt x (s.pc + 2)) := by
  simp only [fetchExec, State.fetched, h, hp, if_true, h2]

/-- Every half-word that the unit at pc needs can be fetched. -/
theorem fetched_decoded (h : s.fetchFault s.pc = none)
    (h2 : (s.half s.pc).getLsbD 15 = true → s.mapFault .fetch (s.pc + 2) = none) : s.fetched = s.decoded := by
  simp only [State.fetched, h]
  split
  next hp => simp only [h2 hp]
  next => rfl

theorem fetchExec_pcePair (hfetched : s.fetched = s.decoded) (hp : (s.half s.pc).getLsbD 15 = true)
    (hp2 : (s.half (s.pc + 2)).getLsbD 15 = false) : fetchExec s = .fault .pcePair := by
  have hdecode : decode s.cfg.littleEndian (s.half s.pc) (s.half (s.pc + 2)) = .error .pcePair := by
    simp only [decode, hp, hp2, Bool.not_true, Bool.not_false, Bool.false_eq_true, if_true, if_false]
  simp only [fetchExec, hfetched, State.decoded, hdecode]

theorem fetchExec_reserved (hfetched : s.fetched = s.decoded)
    (hdecode : decode s.cfg.littleEndian (s.half s.pc) (s.half (s.pc + 2)) = .error .reserved) :
    fetchExec s = .next (s.raise .ri) := by
  simp only [fetchExec, hfetched, State.decoded, hdecode]

theorem memMap_ok {k : AccessKind} {a : Word} (ha : ¬s.memMap a k = .addressError)
    (hb : ¬s.memMap a k = .busError) : s.memMap a k = .ok := by
  rcases mapFault_cases s k a with ⟨h, -⟩ | ⟨h, -⟩ | ⟨h, -⟩
  · exact h
  · exact absurd h ha
  · exact absurd h hb

end fetch

/-- Settles O5: the branches of the statement are those of the fetch, in the same order. -/
theorem fetchExceptions : Obligations.FetchExceptions := by
  unfold Obligations.FetchExceptions
  intro s hevent hawake taken
  have hstep : step s = fetchExec s.tick := step_awake hevent hawake
  split
  next hodd => exact hstep.trans (fetchExec_fault_first (fetchFault_odd hodd))
  next heven =>
  have hfirst : s.tick.fetchFault s.pc = s.tick.mapFault .fetch s.pc := fetchFault_even heven
  split
  next h => exact hstep.trans (fetchExec_fault_first (hfirst.trans (mapFault_addressError h)))
  next haddr =>
  split
  next h => exact hstep.trans (fetchExec_fault_first (hfirst.trans (mapFault_busError h)))
  next hbus =>
  have hnone : s.tick.fetchFault s.pc = none := hfirst.trans (mapFault_none (memMap_ok haddr hbus))
  split
  next h =>
    obtain ⟨hpair, hsecond⟩ := h
    exact hstep.trans (fetchExec_fault_second hnone hpair (mapFault_addressError hsecond))
  next haddr2 =>
  split
  next h =>
    obtain ⟨hpair, hsecond⟩ := h
    exact hstep.trans (fetchExec_fault_second hnone hpair (mapFault_busError hsecond))
  next hbus2 =>
  have hdecoded : s.tick.fetched = s.tick.decoded := fetched_decoded hnone fun hp =>
    mapFault_none (memMap_ok (fun h => haddr2 ⟨hp, h⟩) fun h => hbus2 ⟨hp, h⟩)
  split
  next h =>
    obtain ⟨hpair, hsecond⟩ := h
    exact hstep.trans (fetchExec_pcePair hdecoded hpair hsecond)
  next => exact fun h => hstep.trans (fetchExec_reserved hdecoded h)

/-! ## Interrupts and sleep (R705, R706, R715) -/

theorem step_event {s t : State} (h : s.tick.event s.now = some t) : step s = .next t := by
  rw [step, h]

theorem step_asleep {s : State} (hevent : s.tick.event s.now = none) (h : s.sleeping = true) :
    step s = .next s.tick := by
  rw [step, hevent]
  exact if_pos h

/-- Among the lines looked at, the first pending one is taken. -/
theorem lowestFrom_eq_some {lines : BitVec 16} {j : Nat} (hj : lines.getLsbD j = true) :
    ∀ {n l : Nat}, l ≤ j → j < l + n → (∀ k, l ≤ k → k < j → lines.getLsbD k = false) →
      lowestFrom lines l n = some (BitVec.ofNat 4 j)
  | 0, _, hl, hn, _ => by omega
  | n + 1, l, hl, hn, hbelow => by
    rw [lowestFrom]
    rcases hl.eq_or_lt with rfl | hlt
    · exact if_pos hj
    · rw [hbelow l le_rfl hlt]
      exact lowestFrom_eq_some hj hlt (by omega) fun k hk => hbelow k (by omega)

/-- Where none of the lines looked at is pending, none is taken. -/
theorem lowestFrom_eq_none {lines : BitVec 16} :
    ∀ {n l : Nat}, (∀ k, l ≤ k → k < l + n → lines.getLsbD k = false) → lowestFrom lines l n = none
  | 0, _, _ => rfl
  | n + 1, l, h => by
    rw [lowestFrom, h l le_rfl (by omega)]
    exact lowestFrom_eq_none fun k hk hn => h k (by omega) (by omega)

theorem lowestLine_eq_some {lines : BitVec 16} {l : BitVec 4} (hl : lines.getLsbD l.toNat = true)
    (hbelow : ∀ k < l.toNat, lines.getLsbD k = false) : lowestLine lines = some l := by
  have h := lowestFrom_eq_some hl (n := 16) (Nat.zero_le _) (by omega) fun k _ => hbelow k
  rwa [BitVec.ofNat_toNat, BitVec.setWidth_eq] at h

theorem lowestLine_eq_none {lines : BitVec 16} (h : ∀ l < 16, lines.getLsbD l = false) : lowestLine lines = none :=
  lowestFrom_eq_none fun k _ hk => h k (by omega)

section event

variable {s : State} {i : Inputs}

theorem event_dbg (hdm : s.dreg.dm = false) (hdbg : i.dbg = true) :
    s.event i = some ({ s with sleeping := false }.debugEnter false false) := by
  simp [State.event, hdm, hdbg]

theorem event_nmi (hdm : s.dreg.dm = false) (hdbg : i.dbg = false) (hnmi : i.nmi = true) :
    s.event i = some ({ s with sleeping := false }.raise .nmi) := by
  simp [State.event, hdm, hdbg, hnmi]

theorem event_line (hdm : s.dreg.dm = false) (hdbg : i.dbg = false) (hnmi : i.nmi = false)
    (hiec : s.psr.iec = true) {l : BitVec 4} (hl : lowestLine (i.ext &&& s.ecr.im) = some l) :
    s.event i = some ({ s with sleeping := false }.raise (.interrupt l)) := by
  simp [State.event, hdm, hdbg, hnmi, hiec, hl]

/-- No event is due in Debug Mode, nor where nothing is asserted that the processor listens to. -/
theorem event_eq_none (h : s.dreg.dm = true ∨ i.dbg = false ∧ i.nmi = false ∧
    (s.psr.iec = false ∨ lowestLine (i.ext &&& s.ecr.im) = none)) : s.event i = none := by
  rcases h with hdm | ⟨hdbg, hnmi, hiec | hl⟩
  · simp [State.event, hdm]
  · simp [State.event, hdbg, hnmi, hiec]
  · simp [State.event, hdbg, hnmi, hl]

end event

/-- With the inputs used up nothing is asserted, and no event is due (log 21). -/
theorem event_eq_none_of_inputs_nil {s : State} (h : s.inputs = []) : s.tick.event s.now = none := by
  have hline : lowestLine (0 &&& s.ecr.im) = none := lowestLine_eq_none fun l _ => by simp
  rw [State.now, h]
  exact event_eq_none (.inr ⟨rfl, rfl, .inr hline⟩)

/-- Settles O6: one lemma about `State.event` for each event in the order of R705; a sleeping processor without one uses up the inputs of the step and does nothing else. -/
theorem interruptsAndSleep : Obligations.InterruptsAndSleep := by
  unfold Obligations.InterruptsAndSleep
  intro s
  refine ⟨fun hin hsleep => ?noInputs, fun i rest hin => ?inputs⟩
  case noInputs =>
    have htick : s.tick = s := by rw [State.tick, hin, List.tail_nil, ← hin]
    rw [step_asleep (event_eq_none_of_inputs_nil hin) hsleep, htick]
  case inputs =>
    intro awake due
    have hnow : s.now = i := by rw [State.now, hin]
    have htick : s.tick = { s with inputs := rest } := by rw [State.tick, hin, List.tail_cons]
    have htaken {t : State} (h : State.event { s with inputs := rest } i = some t) : step s = .next t :=
      step_event (by rw [hnow, htick, h])
    have hdue (l : Nat) : (i.ext &&& s.ecr.im).getLsbD l = true ↔ due l := by
      rw [BitVec.getLsbD_and, Bool.and_eq_true]
    have hnotDue {l : Nat} (h : ¬due l) : (i.ext &&& s.ecr.im).getLsbD l = false :=
      Bool.eq_false_of_not_eq_true fun hl => h ((hdue l).1 hl)
    refine ⟨fun hdm hdbg => ?dbg, fun hdm hdbg hnmi => htaken (event_nmi hdm hdbg hnmi),
      fun hdm hdbg hnmi hiec l hl hbelow => ?line, fun hsleep hquiet => ?asleep⟩
    case dbg =>
      rw [htaken (event_dbg hdm hdbg)]
      simp only [State.debugEnter, Bool.or_false]
      rfl
    case line =>
      have hlowest := lowestLine_eq_some ((hdue _).2 hl) fun k hk => hnotDue (hbelow k hk)
      exact htaken (event_line (s := { s with inputs := rest }) hdm hdbg hnmi hiec hlowest)
    case asleep =>
      have hline (h : ∀ l < 16, ¬due l) := lowestLine_eq_none fun l hl => hnotDue (h l hl)
      have hnone : State.event { s with inputs := rest } i = none :=
        event_eq_none (hquiet.imp_right fun ⟨hdbg, hnmi, h⟩ => ⟨hdbg, hnmi, h.imp_right hline⟩)
      rw [step_asleep (by rw [hnow, htick, hnone]) hsleep, htick]

/-! ## What a step in User mode does to the control registers (R710, R712) -/

namespace SameControl

variable {s u : State}

/-- The handler of an exception depends on the launch and on cr3 only (R693). -/
theorem excVector (h : SameControl s u) (x : Exc) : u.excVector x = s.excVector x := by
  have hcfg : u.cfg = s.cfg := congrArg ControlState.cfg h.control
  have hvec : u.excpVec = s.excpVec := congrArg ControlState.excpVec h.control
  simp only [State.excVector, hcfg, hvec]

theorem debugVector (h : SameControl s u) : u.debugVector = s.debugVector := by
  have hcfg : u.cfg = s.cfg := congrArg ControlState.cfg h.control
  have hvec : u.excpVec = s.excpVec := congrArg ControlState.excpVec h.control
  simp only [State.debugVector, hcfg, hvec]

/-- An exception entry after such a change, as a change of the control state before it (R691). -/
theorem enter_control (h : SameControl s u) (x : Exc) (epc : Word) (addr : Option Word) :
    (u.enter x epc addr).control = (s.enter x epc addr).control := by
  have henter (v : State) : (v.enter x epc addr).control = { v.control with
      psr := { v.control.psr with ums := v.control.psr.umc, ies := v.control.psr.iec, umc := false, iec := false }
      savedFlags := v.flags, ecr := { v.control.ecr with excCode := excCode v.control.cfg x }
      epc := epc, ema := addr.getD v.control.ema } := rfl
  rw [henter, henter, h.control, h.flags]

/-- A debug entry after such a change, as a change of the control state before it (R715). -/
theorem debugEnter_control (h : SameControl s u) (dbp brkSt : Bool) :
    (u.debugEnter dbp brkSt).control = (s.debugEnter dbp brkSt).control := by
  have henter (v : State) : (v.debugEnter dbp brkSt).control = { v.control with
      depc := v.pc, dreg := { v.control.dreg with
        dm := true, dbp := v.control.dreg.dbp || dbp, brkSt := v.control.dreg.brkSt || brkSt } } := rfl
  rw [henter, henter, h.control, h.pc]

end SameControl

/-- Without privilege the control state stays as it is, or is the one after the entry of an exception or of Debug Mode (R712). -/
theorem ControlEffect.of_unprivileged {s t : State} (h : ControlEffect s t) (hp : s.privileged = false) :
    t.control = s.control ∨
      (∃ x addr, t.control = (s.enter x s.pc addr).control ∧ t.pc = s.excVector x) ∨
      ∃ dbp brkSt, t.control = (s.debugEnter dbp brkSt).control ∧ t.pc = s.debugVector := by
  have hnot : ¬s.privileged = true := Bool.not_eq_true _ ▸ hp
  cases h with
  | kept control => exact .inl control
  | entered u x addr same enter =>
    subst enter
    exact .inr (.inl ⟨x, addr, same.enter_control x s.pc addr, same.excVector x⟩)
  | debugEntered u dbp brkSt same outside enter =>
    subst enter
    exact .inr (.inr ⟨dbp, brkSt, same.debugEnter_control dbp brkSt, same.debugVector⟩)
  | written u n v same allowed => exact absurd allowed hnot
  | returned u same allowed => exact absurd allowed hnot
  | debugReturned u same allowed => exact absurd allowed hnot

/-- The control state field by field. -/
theorem control_eq_iff {s t : State} : t.control = s.control ↔
    t.cfg = s.cfg ∧ t.savedFlags = s.savedFlags ∧ t.condRest = s.condRest ∧ t.psr = s.psr ∧ t.ecr = s.ecr ∧
      t.excpVec = s.excpVec ∧ t.ccr = s.ccr ∧ t.epc = s.epc ∧ t.ema = s.ema ∧ t.limpfn = s.limpfn ∧
      t.ldmpfn = s.ldmpfn ∧ t.prev = s.prev ∧ t.dreg = s.dreg ∧ t.depc = s.depc ∧ t.dsave = s.dsave := by
  simp only [State.control, ControlState.mk.injEq]

/-- Settles O11: a state in User mode without cra is not privileged, so that the control state after a step is the one before it or the one after an entry. -/
theorem userModeConfined : Obligations.UserModeConfined := by
  unfold Obligations.UserModeConfined
  intro s t humc hcra hdm hstep
  have hp : s.privileged = false := privileged_eq_false_iff.2 ⟨humc, hdm, hcra⟩
  rcases (step_controlEffect hstep).of_unprivileged hp with h | ⟨x, addr, h, hpc⟩ | ⟨dbp, brkSt, h, hpc⟩ <;>
    obtain ⟨-, hsaved, hrest, hpsr, hecr, hvec, hccr, hepc, hema, hlim, hldm, hprev, hdreg, hdepc, hdsave⟩ :=
      control_eq_iff.1 h <;>
    refine ⟨hvec, hccr, hlim, hldm, hprev, hdsave, hrest, (congrArg Ecr.im hecr :), (congrArg Psr.cra hpsr :),
      (congrArg Psr.cu1 hpsr :), (congrArg Psr.cu2 hpsr :), (congrArg Psr.cu3 hpsr :), ?_⟩
  case inl => exact .inl ⟨hpsr, hdreg, hdepc, hecr, hepc, hema, hsaved⟩
  case inr.inl =>
    exact .inr (.inl ⟨⟨x, hpc, congrArg Ecr.excCode hecr⟩, congrArg Psr.umc hpsr, congrArg Psr.iec hpsr,
      (congrArg Psr.ums hpsr).trans humc, congrArg Psr.ies hpsr, hsaved, hdreg, hdepc⟩)
  case inr.inr => exact .inr (.inr ⟨hpc, congrArg Dreg.dm hdreg, hdepc, hpsr, hecr, hepc⟩)

end Sys2Proof.Machine
end

section
/-! PROOFS. Reset, and the canonical form of memory that every step keeps (70_reset_and_hazards.md R741; log 3). -/

namespace Sys2Proof.Machine

/-! ## What a step does to memory -/

/-- Everything that can happen to memory between `s` and `t`. -/
inductive MemoryEffect (s t : State) : Prop
  /-- Nothing. -/
  | kept (mem : t.mem = s.mem)
  /-- Bytes are stored from one address on (R89). -/
  | written (a : Word) (bs : List Byte) (mem : t.mem = writeBytes s.mem a bs)

namespace MemoryEffect

variable {s t effect : State}

theorem of_ite {c : Prop} [Decidable c] {u : State} (ht : MemoryEffect s t) (hu : MemoryEffect s u) :
    MemoryEffect s (if c then t else u) := by
  split
  · exact ht
  · exact hu

/-- An exception discards the effect of the access and leaves memory alone (R690). -/
theorem of_accessed {k : AccessKind} {w : Width} {ea : Word} (h : MemoryEffect s effect) :
    MemoryEffect s (s.accessed k w ea effect) := by
  rcases accessed_cases s k w ea effect with ⟨-, e⟩ | ⟨x, -, e⟩ <;> rw [e]
  · exact h
  · exact .kept (raiseAt_mem s x ea)

theorem of_coprocessed {n : BitVec 2} (h : MemoryEffect s effect) : MemoryEffect s (s.coprocessed n effect) := by
  rcases coprocessed_cases s n effect with ⟨-, -, -, e⟩ | ⟨-, e⟩ | ⟨-, -, e⟩ <;> rw [e]
  · exact h
  · exact .kept (raise_mem s .ri)
  · exact .kept (raise_mem s .ccu)

theorem of_controlled (h : MemoryEffect s effect) : MemoryEffect s (s.controlled effect) := by
  rcases controlled_cases s effect with ⟨-, e⟩ | ⟨-, e⟩ <;> rw [e]
  · exact h
  · exact .kept (raise_mem s .ccu)

/-- An outcome whose next state, if any, is one with such an effect. -/
def Meets (s : State) (o : Result) : Prop := ∀ t, o = .next t → MemoryEffect s t

theorem meets_next (h : MemoryEffect s t) : Meets s (.next t) := by
  rintro _ ⟨⟩
  exact h

theorem meets_combined (h : MemoryEffect s effect) : Meets s (s.combined effect) := by
  rcases combined_cases s effect with ⟨-, e⟩ | ⟨-, e⟩ <;> rw [e]
  · exact meets_next h
  · rintro _ ⟨⟩

end MemoryEffect

/-! ## The updates that have no memory lemma yet -/

section updates

variable (s : State)

@[simp] theorem setUser_mem (usd : BitVec 5) (v : Option Word) : (s.setUser usd v).mem = s.mem := by
  cases v <;> rfl

@[simp] theorem applyCe_mem (usd1 usd2 : BitVec 5) (r : CeResult) : (s.applyCe usd1 usd2 r).mem = s.mem := by
  simp only [State.applyCe, setUser_mem]

@[simp] theorem setControlReg_mem (n : BitVec 5) (w : Word) : (s.setControlReg n w).mem = s.mem := by
  unfold State.setControlReg
  split <;> rfl

end updates

/-! ## One lemma for each instruction that answers by cases of its own -/

namespace MemoryEffect

variable (s : State)

theorem exec_mvCond (c : Cond) (rd ra : Reg) : Meets s (exec (.mvCond c rd ra) s) := by
  refine meets_next (.kept ?_)
  split <;> rfl

theorem exec_mfsr (rd : Reg) (n : BitVec 5) : Meets s (exec (.mfsr rd n) s) := by
  show Meets s (execMfsr rd n s)
  unfold execMfsr
  split <;> exact meets_next (.kept rfl)

theorem exec_mtsr (ra : Reg) (n : BitVec 5) : Meets s (exec (.mtsr ra n) s) := by
  have he : exec (.mtsr ra n) s = execMtsr ra n s := rfl
  rcases setSpecial_cases s n (s.reg ra) with ⟨-, h⟩ | ⟨-, h⟩ | ⟨-, h⟩ | ⟨-, h⟩ <;> rw [he, execMtsr, h] <;>
    exact meets_next (.kept rfl)

theorem exec_mfcr (rd : Reg) (crn : BitVec 5) : Meets s (exec (.mfcr rd crn) s) := by
  refine meets_next (of_controlled ?_)
  split <;> exact .kept rfl

/-- `ceinst` writes CEH, CEL and registers, whether or not it raises CeE after them (R395). -/
theorem exec_ceinst (func5 : BitVec 5) (ra rb : Reg) (usd1 usd2 : BitVec 5) :
    Meets s (exec (.ceinst func5 ra rb usd1 usd2) s) :=
  have happlied := applyCe_mem s usd1 usd2 (Config.ceInstStep func5 (s.reg ra) (s.reg rb) usd1 usd2 s.ceh s.cel)
  meets_next (of_ite (.kept rfl) (of_ite (.kept happlied) (.kept happlied)))

/-- What `lcw` does, and `lce` at an address that is not aligned. -/
theorem loadCombined (rd ra : Reg) : MemoryEffect s (s.loadCombined rd ra) :=
  of_accessed (.kept (setLoadedBase_mem _ rd ra _ _))

/-- Everything that an instruction can do to memory: a store writes its bytes, and the others write none. -/
theorem exec_memoryEffect (i : Instr) : Meets s (exec i s) := by
  cases i with
  | sw | sh | sb | sw16 | sh16 | sb16 | swp16 | shp16 | sbp16 | swPre | shPre | sbPre | swPost | shPost | sbPost
    | push16 => exact meets_next (of_accessed (.written _ _ rfl))
  | stc => exact meets_next (of_coprocessed (of_accessed (.written _ _ rfl)))
  | scb | scw => exact meets_combined (of_accessed (.written _ _ rfl))
  | sce => exact meets_combined (of_ite (.kept rfl) (of_accessed (.written _ _ rfl)))
  | lw | lh | lhu | lb | lbu | lw16 | lh16 | lbu16 | lwp16 | lhp16 | lbup16 =>
    exact meets_next (of_accessed (.kept rfl))
  | lwPre | lhPre | lhuPre | lbPre | lbuPre | lwPost | lhPost | lhuPost | lbPost | lbuPost | pop16 =>
    exact meets_next (of_accessed (.kept (setLoadedBase_mem ..)))
  | lcb => exact meets_combined (of_accessed (.kept rfl))
  | lcw rd ra => exact meets_combined (loadCombined s rd ra)
  | lce rd ra => exact meets_combined (of_ite (.kept (setLoadedBase_mem s rd ra _ _)) (loadCombined s rd ra))
  | mtc | mtcc => exact meets_next (of_coprocessed (.kept (setCop_mem ..)))
  | mfc | mfcc => exact meets_next (of_coprocessed (.kept rfl))
  | ldc => exact meets_next (of_coprocessed (of_accessed (.kept (setCop_mem ..))))
  | cop => exact meets_next (of_coprocessed (of_ite (.kept (setCop_mem ..)) (.kept (setCop_mem ..))))
  | mtcr rd crn => exact meets_next (of_controlled (.kept (setControlReg_mem s crn _)))
  | rte | drte | sleep => exact meets_next (of_controlled (.kept rfl))
  | trapCond => exact meets_next (of_controlled (of_ite (.kept rfl) (.kept rfl)))
  | mfcr rd crn => exact exec_mfcr s rd crn
  | mfsr rd n => exact exec_mfsr s rd n
  | mtsr ra n => exact exec_mtsr s ra n
  | ceinst func5 ra rb usd1 usd2 => exact exec_ceinst s func5 ra rb usd1 usd2
  | mfcehl rd ra => exact meets_next (.kept (setLoadedBase_mem s rd ra s.ceh s.cel))
  | div | cache => exact meets_next (of_ite (.kept rfl) (of_ite (.kept rfl) (.kept rfl)))
  | divu | sdbbp | sdbbp16 => exact meets_next (of_ite (.kept rfl) (.kept rfl))
  | mvCond c rd ra => exact exec_mvCond s c rd ra
  | _ => exact meets_next (.kept rfl)

end MemoryEffect

/-- Everything that a step can do to memory: what its instruction does; events and the exceptions of the fetch leave it. -/
theorem step_memoryEffect {s t : State} (h : step s = .next t) : MemoryEffect s t := by
  rcases step_cases h with hevent | ⟨-, ⟨-, rfl⟩ | ⟨-, ⟨x, a, rfl⟩ | rfl | ⟨i, hi⟩⟩⟩
  · obtain ⟨-, ⟨-, rfl⟩ | ⟨-, -, rfl⟩ | ⟨-, -, -, l, -, rfl⟩⟩ := event_cases hevent <;> exact .kept rfl
  · exact .kept (tick_mem s)
  · exact .kept rfl
  · exact .kept rfl
  · have htick : MemoryEffect s.tick t := MemoryEffect.exec_memoryEffect s.tick i t hi
    cases htick with
    | kept mem => exact .kept mem
    | written a bs mem => exact .written a bs mem

/-- Neither leaving memory alone nor storing bytes ends the canonical form (log 3). -/
theorem MemoryEffect.wf {s t : State} (h : MemoryEffect s t) (hwf : Memory.wf s.mem = true) :
    Memory.wf t.mem = true := by
  cases h with
  | kept mem => exact mem ▸ hwf
  | written a bs mem => exact mem ▸ writeBytes_wf hwf

/-- Settles O12: what a step can do to memory is to leave it or to store bytes, and both keep the form. -/
theorem stepKeepsMemoryForm : Obligations.StepKeepsMemoryForm := by
  unfold Obligations.StepKeepsMemoryForm
  intro s t hwf hstep
  exact (step_memoryEffect hstep).wf hwf

/-! ## What reset leaves (R741) -/

/-- Reset memory names no byte. -/
theorem reset_mem : State.reset.mem = [] := rfl

/-- Settles O13: the list without entries has the canonical form. -/
theorem resetMemoryForm : Obligations.ResetMemoryForm := by
  unfold Obligations.ResetMemoryForm
  rw [reset_mem]
  rfl

/-- All four remainders are 0 after reset, so that no mask finds a bit in them (R41, log 1). -/
theorem reset_remaindersClear : State.reset.remaindersClear = true := by decide

/-- Settles O15: the fields have their values by the definition of the reset state; the launch and the remainders have a lemma each. -/
theorem resetValues : Obligations.ResetValues := by
  unfold Obligations.ResetValues
  exact ⟨rfl, rfl, rfl, rfl, rfl, rfl, rfl, rfl, rfl, reset_launchLegal, reset_remaindersClear⟩

end Sys2Proof.Machine
end
